-- ==== Sys2Proof/Word.lean ====
section
/-! DEFINITION. The word types of the Jozon model (R7: 32-bit registers, little-endian multi-byte values). -/

namespace Sys2Proof

/-- A 64-bit scalar value (MKI s register, 64-bit register value). -/
abbrev Word := BitVec 64

/-- A register word (R7). -/
abbrev Reg := BitVec 32

/-- One byte. -/
abbrev Byte := BitVec 8

/-- The data of one 64-byte line, byte 0 in the low bits (R7, R104). -/
abbrev LineData := BitVec 512

/-- A vector register (Table 6.1). -/
abbrev VReg := BitVec 2048

end Sys2Proof
end

