-- ==== Sys2Proof/Syntax.lean ====
section
/-! DEFINITION. The commands of the Jozon block and their operands. Every row of spec/opcode_table.json is one constructor of
`Instr`. A unit number is a `Fin` of the full build's count (R14); whether the unit is present is judged by the meanings. -/

namespace Sys2Proof

/-- A unit that runs MKI (R134, R135): crucible `n`, or control core `c` of quoin `e`. -/
inductive MUnit where
  | cru (n : Fin 72)
  | core (e c : Fin 4)
  deriving DecidableEq, Repr

/-- A requester of register space (R32). -/
inductive Requester where
  | hd (h : Fin 128)
  | core (e c : Fin 4)
  | cru (n : Fin 72)
  | smbus
  | test
  deriving DecidableEq, Repr

/-- The size of a register access in bytes (R29). -/
inductive AccSize where
  | b1 | b2 | b4 | b8
  deriving DecidableEq, Repr

/-- The page through which a register is written (Table 2.1). -/
inductive Page where
  | base | set | clr | tog
  deriving DecidableEq, Repr

/-- A predicate guard: PE, PR and PN (R144, R147). -/
structure Guard where
  pe : Bool
  pr : BitVec 4
  pn : Bool
  deriving DecidableEq, Repr

/-- Format A without OP and FN (Table 6.3); `rsv` is bits [7:0]. -/
structure FmtA where
  g : Guard
  d : BitVec 6
  a : BitVec 6
  b : BitVec 6
  c : BitVec 6
  rm : BitVec 2
  sat : Bool
  ty : BitVec 5
  rsv : BitVec 8
  deriving DecidableEq, Repr

/-- Format B without OP and FN (Table 6.3). -/
structure FmtB where
  g : Guard
  d : BitVec 6
  a : BitVec 6
  imm : BitVec 32
  deriving DecidableEq, Repr

/-- Format C without OP and FN (Table 6.3); `rsv` is bits [25:24]. -/
structure FmtC where
  g : Guard
  d : BitVec 6
  base : BitVec 6
  idx : BitVec 6
  sh : BitVec 2
  rsv : BitVec 2
  off : BitVec 24
  deriving DecidableEq, Repr

/-- Format D without OP and FN (Table 6.3); `rsv` is bits [8:0]. -/
structure FmtD where
  g : Guard
  mu : Bool
  t : BitVec 2
  sa : BitVec 6
  sb : BitVec 6
  sx : BitVec 6
  tya : BitVec 5
  tyb : BitVec 5
  rm : BitVec 2
  sat : Bool
  z : Bool
  rsv : BitVec 9
  deriving DecidableEq, Repr

/-- Format E without OP and FN (Table 6.3); `rsv` is bit [32]. -/
structure FmtE where
  g : Guard
  sc : BitVec 5
  a : BitVec 6
  rsv : Bool
  imm : BitVec 32
  deriving DecidableEq, Repr

/-- An issue queue of a crucible (Table 4.1), with the codes of CR_TRAP.QUEUE (Table 4.7). -/
inductive QueueId where
  | seq | mq0 | mq1 | vq | xq
  deriving DecidableEq, Repr

/-- How a crucible itself fails (R93, Table 22.3 sources 3 to 7). -/
inductive CruFailure where
  | tagParity (set : Fin 1024) | internal | portLost | selftest | snoopTimeout
  deriving DecidableEq, Repr

/-- The coherence messages of Tables 11.5 and 12.2. -/
inductive MsgKind where
  | rds | rdx | upg | rdc | wrf | wrp | wbd | wbk | evc | ram
  | snpFwdS | snpFwdX | snpCur | snpInv | snpGetI | snpInvG | tagQ
  | snpAck | cmp | cmpX | retry | rgrant | tagR
  | dataX | dataD | dataS | dataL | dataC | snpData
  /-- The gate's answer to a host's BIConflict (R306). -/
  | biConflictAck
  deriving DecidableEq, Repr

/-- The state a snoop answer or a TagR carries (Table 11.5, Table 12.2). -/
inductive AckState where
  | d | x | s | l | i | wbp | fail
  deriving DecidableEq, Repr

/-- A coherence message. `aid` is the agent that sends it to the home or receives it from the home (Table 11.1), `home` the
keystone, `line` the line's PPA divided by 64, `tag` the transaction tag. `other` names the requester a forwarding snoop serves;
`mask` is WrP's byte mask; `op` is the rammer operation code; `ok` is the success of a home-held STCOND's Cmp, `resv` marks a home-held
LDRES or STCOND (R372), `dat` in a SnpAck says that a SnpData accompanies it, and `near` in a SnpFwdS says that its transaction was
admitted under nearest-sharer sourcing (R278, R280). A request that carries data stands for its REQ header and its DAT part together,
which its tag pairs (R281). -/
structure Msg where
  kind : MsgKind
  aid : Nat
  home : Nat
  line : Nat
  tag : Nat := 0
  data : LineData := 0
  poison : Bool := false
  mask : BitVec 64 := 0
  other : Nat := 0
  op : BitVec 4 := 0
  ack : AckState := .i
  ok : Bool := true
  resv : Bool := false
  dat : Bool := false
  near : Bool := false
  deriving DecidableEq, Repr

/-- The MetaValue of a CXL.mem request (Table 11.6). -/
inductive Meta where
  | i | s | a
  deriving DecidableEq, Repr

/-- A flit of a module (R379): its sequence number, and how many of its slots 0 to 30 carry messages. -/
structure Flit where
  seq : Nat
  count : Fin 32
  deriving DecidableEq, Repr

/-- An HDM decoder by its number, and what a host has written in its fields when it writes Commit (R250, R456): granularity in bytes. -/
structure HdmFields where
  ix : Fin 8
  base : Nat
  size : Nat
  skip : Nat
  ways : Nat
  gran : Nat
  lock : Bool
  deriving DecidableEq, Repr

/-- A CXL.mem message of a host domain (Table 11.6): request or Back-Invalidate response. It names a line by the host physical address
`hpa`, which the LD's decoders map (R250), or where that is not given by the DPA itself. -/
structure HostReq where
  hd : Fin 128
  dpa : Word
  hpa : Option Word := none
  mv : Meta := .i
  tag : Nat := 0
  data : LineData := 0
  poison : Bool := false
  mask : BitVec 64 := 0
  /-- Of a Back-Invalidate response: the line's dirty data follows by MemWr (R283). -/
  dirty : Bool := false
  deriving DecidableEq, Repr

/-- The parameters of a command slot (Table 18.1): payload words, PARAM0, PARAM1, RESPONSE and the reserved bytes of line 1. -/
structure CmdArgs where
  payload : List Word
  tag : Word
  param0 : Word
  param1 : Word
  response : Word
  deriving DecidableEq, Repr

/-- The status of a memory-port read (Table 24.2). -/
inductive PortStatus where
  | ok | ce | ceErasure | ue
  deriving DecidableEq, Repr

/-- What a REG access of the controller reads or reports (Table 24.1, R537, R539, Table 24.3). -/
inductive PortReg where
  | geom | pos (i : Fin 8) | refreshForced | fatal | eraseDone
  deriving DecidableEq, Repr

/-- A neighbour port of a sprue router, p = 0 to 3 (R398). -/
inductive SPort where
  | n | e | s | w
  deriving DecidableEq, Repr

/-- An input of a sprue router: a neighbour port or the local port (Table 16.2). -/
inductive RPort where
  | nb (p : SPort)
  | loc
  deriving DecidableEq, Repr

/-- The channels of a router input (Table 16.2). -/
inductive Vn where
  | req | snp | rsp | dat | esc
  deriving DecidableEq, Repr

/-- A sprue message at a router: its channel, its destination site and the coherence message it carries (R384). `body` marks the DAT
part of a request that carries data, which travels apart from the request's header (R281, R379). -/
structure NetMsg where
  vn : Vn
  dest : Fin 100
  msg : Msg
  body : Bool := false
  deriving DecidableEq, Repr

/-- A request that carries data (Table 11.5). -/
def MsgKind.carries : MsgKind → Bool
  | .wrf | .wrp | .wbd | .wbk | .ram => true
  | _ => false

/-- The virtual network of a message (Tables 11.5, 12.2); none for what goes on a gate's CXL link only. -/
def MsgKind.vn : MsgKind → Option Vn
  | .rds | .rdx | .upg | .rdc | .wrf | .wrp | .wbd | .wbk | .evc | .ram => some .req
  | .snpFwdS | .snpFwdX | .snpCur | .snpInv | .snpGetI | .snpInvG | .tagQ => some .snp
  | .snpAck | .cmp | .cmpX | .retry | .rgrant | .tagR => some .rsp
  | .dataX | .dataD | .dataS | .dataL | .dataC | .snpData => some .dat
  | .biConflictAck => none

/-- The virtual network a sprue message belongs to, whichever channel it is on (R281). -/
def NetMsg.home (m : NetMsg) : Option Vn :=
  if m.body then (if m.msg.kind.carries then some .dat else none) else m.msg.kind.vn

/-- A sprue message is on its virtual network, or on the escape channel (Table 16.2). -/
def NetMsg.fits (m : NetMsg) : Bool := m.home.isSome && (m.vn == .esc || m.home == some m.vn)

/-- What a gate's link reached at L0 (R448, R449, Table 19.7): the rate code, the width, the flit format, whether a switch presents
16 LDs, whether EXT200 equalization failed, and whether the width or rate is below what both partners advertise. -/
structure LinkInfo where
  rate : BitVec 4
  width : BitVec 5
  flit : BitVec 2
  mld : Bool
  cacheEn : Bool
  extFail : Bool
  degraded : Bool
  deriving DecidableEq, Repr

/-- How a completion for a host-side read ends (R415). -/
inductive CplStatus where
  | ok | poisoned | error
  deriving DecidableEq, Repr

/-- The two MCTP bindings (R470). -/
inductive MctpBinding where
  | vdm | smbus
  deriving DecidableEq, Repr

/-- Selection policy and parameters of Initiate Dynamic Capacity Add (R254). Lengths are in 256 MiB blocks. -/
inductive AddReq where
  | free (region : Fin 8) (blocks : Nat) (tag : Nat)
  | contiguous (region : Fin 8) (blocks : Nat) (tag : Nat)
  | prescriptive (ranges : List (Nat × Nat)) (tag : Nat)
  | shared (tag : Nat)
  deriving DecidableEq, Repr

/-- A firmware slot (Table 21.1). -/
inductive FwSlot where
  | slot1 | slot2
  deriving DecidableEq, Repr

/-- The header fields and body bytes of a firmware image (Table 21.2). The keys, digest and signature are carried as numbers;
whether they verify is `Config.imageVerifies`. -/
structure FwImage where
  magic : Reg
  format : Reg
  version : Reg
  svn : Reg
  length : Reg
  entry : Reg
  digest : Nat
  pubkey : Nat
  signature : Nat
  body : List Byte
  deriving DecidableEq, Repr

/-- The SPDM requests the responder answers (R489). -/
inductive SpdmReq where
  | getCertificate
  | getMeasurement (index : Fin 6)
  | startSession
  deriving DecidableEq, Repr

/-- What an array error has struck in the unit that its event names (R84, Tables 14.3 and 14.7, R515): a 64-bit word of a mould, a word of
a line (PPA div 64) of a crucible cache, a line or a way of a hearth, an entry of a line or a region directory (both by stack-local
line); last, an error that a crucible cache or a hearth has corrected. An event that comes without one names no place that the model
holds. -/
inductive HwError where
  | none
  | mould (word : Fin 1048576)
  | cacheWord (line : Nat) (word : Fin 8)
  | hearthLine (sl : Nat)
  | hearthWay (set : Fin 32768) (way : Fin 16)
  | dirLine (sl : Nat)
  | dirRegion (sl : Nat)
  | cacheCe
  | hearthCe
  deriving DecidableEq, Repr

/-- A fault event (R500, R502): source number of Table 22.3, unit in the encoding of Table 22.4, PARAM and the second unit and detail
of its mark-log record, whether it is forced (R503), and what an array error has struck. -/
structure FaultEv where
  src : Fin 64
  unit : Nat
  param : Nat := 0
  param2 : Nat := 0
  param3 : Nat := 0
  forced : Bool := false
  err : HwError := .none
  deriving DecidableEq, Repr

/-- The cause of a chip reset (Table 25.7). -/
inductive ResetCause where
  | command | chip (src : Fin 64) | thermTrip | noWarmQuoin | pwrFail
  deriving DecidableEq, Repr

/-- What bring-up observes from outside the set when a step runs: the dies that reported another version, by site, with that version
(R549), and whether the stacks kept their contents, the shutdown mark among them, across the power-up (R551). -/
structure BringupObs where
  badDies : List (Fin 100 × Reg)
  warmMark : Bool
  deriving DecidableEq, Repr


/-- The commands of the block: one constructor per row of spec/opcode_table.json. -/
inductive Instr where
  /-- REGISTER_WRITE (R26) -/
  | registerWrite (r : Requester) (a : BitVec 32) (sz : AccSize) (d : Word)
  /-- RWC_WRITE (R39) -/
  | rwcWrite (r : Requester) (a : BitVec 32) (sz : AccSize) (d : Word)
  /-- WIDE_LOW_READ (R33) -/
  | wideLowRead (r : Requester) (a : BitVec 32) (sz : AccSize)
  /-- WIDE_HIGH_READ (R33) -/
  | wideHighRead (r : Requester) (a : BitVec 32) (sz : AccSize)
  /-- WIDE_LOW_WRITE (R34) -/
  | wideLowWrite (r : Requester) (a : BitVec 32) (sz : AccSize) (d : Word)
  /-- WIDE_HIGH_WRITE (R36) -/
  | wideHighWrite (r : Requester) (a : BitVec 32) (sz : AccSize) (d : Word)
  /-- PENDING_CANCEL (R42) -/
  | pendingCancel (r : Requester) (a : BitVec 32) (sz : AccSize) (d : Word)
  /-- INT_REARM (R45) -/
  | intRearm (r : Requester) (a : BitVec 32) (sz : AccSize) (d : Word)
  /-- FRAME_EDGE (R49) -/
  | frameEdge (t : Nat)
  /-- FRAME_EDGE_MISSED (R61) -/
  | frameEdgeMissed
  /-- GENERATED_EDGE (R61) -/
  | generatedEdge
  /-- RELOCK_ABANDON (R64) -/
  | relockAbandon
  /-- TOD_MESSAGE (R57) -/
  | todMessage (bytes : List Byte) (t : Nat)
  /-- HALF_RATE_END (R57) -/
  | halfRateEnd
  /-- TOD_MISSING (R55) -/
  | todMissing
  /-- TIMEBASE_ENABLE (R58) -/
  | timebaseEnable (r : Requester) (p : Page) (d : Reg)
  /-- FREE_START (R60) -/
  | freeStart (r : Requester) (p : Page) (d : Reg)
  /-- HOLD_FORCE (R66) -/
  | holdForce (r : Requester) (p : Page) (d : Reg)
  /-- COURSE_BOUNDARY (R67) -/
  | courseBoundary
  /-- SANITIZE_END (R259) -/
  | sanitizeEnd (e : Nat)
  /-- CHARGE_DEADLINE (R230) -/
  | chargeDeadline (p : Fin 4096) (slot : Fin 4096)
  /-- ACCESS_DEAD_DECLARE (R365) -/
  | accessDeadDeclare
  /-- CHILL_END (R511) -/
  | chillEnd
  /-- TAKEOVER_DECISION (R495) -/
  | takeoverDecision
  /-- HEARTBEAT_LOST (R520) -/
  | heartbeatLost
  /-- START (R90) -/
  | start (r : Requester) (n : Fin 72)
  /-- STOP (R90) -/
  | stop (r : Requester) (n : Fin 72)
  /-- STOP_COMPLETE (R90) -/
  | stopComplete (n : Fin 72)
  /-- RESUME (R90) -/
  | resume (r : Requester) (n : Fin 72)
  /-- ABORT (R90) -/
  | abort (r : Requester) (n : Fin 72)
  /-- ABORT_COMPLETE (R368) -/
  | abortComplete (n : Fin 72)
  /-- RESET (R95) -/
  | reset (r : Requester) (n : Fin 72)
  /-- RESET_COMPLETE (R95) -/
  | resetComplete (n : Fin 72)
  /-- STANDBY (R90) -/
  | standby (r : Requester) (n : Fin 72)
  /-- STANDBY_COMPLETE (R90) -/
  | standbyComplete (n : Fin 72)
  /-- WAKE (R98) -/
  | wake (r : Requester) (n : Fin 72)
  /-- RETIRE (R99) -/
  | retire (r : Requester) (n : Fin 72)
  /-- RETIRE_COMPLETE (R99) -/
  | retireComplete (n : Fin 72)
  /-- SELFTEST_END (R96) -/
  | selftestEnd (n : Fin 72) (failPart : BitVec 8)
  /-- CRUCIBLE_FAIL (R93) -/
  | crucibleFail (n : Fin 72) (src : CruFailure)
  /-- CRUCIBLE_TRAP (R151) -/
  | crucibleTrap (n : Fin 72)
  /-- INTERRUPT_ACCEPT (R154) -/
  | interruptAccept (e : Fin 4) (c : Fin 4)
  /-- MMA (R159) -/
  | mma (u : MUnit) (f : FmtD)
  /-- TCLR (R162) -/
  | tclr (u : MUnit) (f : FmtD)
  /-- TROW (R163) -/
  | trow (u : MUnit) (f : FmtD)
  /-- TTR (R162) -/
  | ttr (u : MUnit) (f : FmtD)
  /-- TSCL_C (R164) -/
  | tsclC (u : MUnit) (f : FmtD)
  /-- TSCL_R (R164) -/
  | tsclR (u : MUnit) (f : FmtD)
  /-- TLD (R162) -/
  | tld (u : MUnit) (f : FmtD)
  /-- TST (R165) -/
  | tst (u : MUnit) (f : FmtD)
  /-- XLD (R166) -/
  | xld (u : MUnit) (f : FmtD)
  /-- XLDN (R166) -/
  | xldn (u : MUnit) (f : FmtD)
  /-- XST (R166) -/
  | xst (u : MUnit) (f : FmtD)
  /-- XSTN (R166) -/
  | xstn (u : MUnit) (f : FmtD)
  /-- VADD_F32 (R172) -/
  | vaddF32 (u : MUnit) (f : FmtA)
  /-- VSUB_F32 (R172) -/
  | vsubF32 (u : MUnit) (f : FmtA)
  /-- VMUL_F32 (R172) -/
  | vmulF32 (u : MUnit) (f : FmtA)
  /-- VFMA_F32 (R172) -/
  | vfmaF32 (u : MUnit) (f : FmtA)
  /-- VFNMA_F32 (R172) -/
  | vfnmaF32 (u : MUnit) (f : FmtA)
  /-- VMIN_F32 (R125) -/
  | vminF32 (u : MUnit) (f : FmtA)
  /-- VMAX_F32 (R125) -/
  | vmaxF32 (u : MUnit) (f : FmtA)
  /-- VABS_F32 (R172) -/
  | vabsF32 (u : MUnit) (f : FmtA)
  /-- VNEG_F32 (R172) -/
  | vnegF32 (u : MUnit) (f : FmtA)
  /-- VADD (R127) -/
  | vadd (u : MUnit) (f : FmtA)
  /-- VSUB (R127) -/
  | vsub (u : MUnit) (f : FmtA)
  /-- VMUL (R127) -/
  | vmul (u : MUnit) (f : FmtA)
  /-- VADDS (R172) -/
  | vadds (u : MUnit) (f : FmtA)
  /-- VSUBS (R172) -/
  | vsubs (u : MUnit) (f : FmtA)
  /-- VMIN (R172) -/
  | vmin (u : MUnit) (f : FmtA)
  /-- VMAX (R172) -/
  | vmax (u : MUnit) (f : FmtA)
  /-- VAND (R172) -/
  | vand (u : MUnit) (f : FmtA)
  /-- VOR (R172) -/
  | vor (u : MUnit) (f : FmtA)
  /-- VXOR (R172) -/
  | vxor (u : MUnit) (f : FmtA)
  /-- VSHL (R172) -/
  | vshl (u : MUnit) (f : FmtA)
  /-- VSHR (R172) -/
  | vshr (u : MUnit) (f : FmtA)
  /-- VSRA (R172) -/
  | vsra (u : MUnit) (f : FmtA)
  /-- VCEQ (R126) -/
  | vceq (u : MUnit) (f : FmtA)
  /-- VCNE (R126) -/
  | vcne (u : MUnit) (f : FmtA)
  /-- VCLT (R126) -/
  | vclt (u : MUnit) (f : FmtA)
  /-- VCLE (R126) -/
  | vcle (u : MUnit) (f : FmtA)
  /-- VCGT (R126) -/
  | vcgt (u : MUnit) (f : FmtA)
  /-- VCGE (R126) -/
  | vcge (u : MUnit) (f : FmtA)
  /-- VSEL (R172) -/
  | vsel (u : MUnit) (f : FmtA)
  /-- VBCAST (R172) -/
  | vbcast (u : MUnit) (f : FmtA)
  /-- VINS (R172) -/
  | vins (u : MUnit) (f : FmtA)
  /-- VEXT (R172) -/
  | vext (u : MUnit) (f : FmtA)
  /-- VRSUM_F32 (R173) -/
  | vrsumF32 (u : MUnit) (f : FmtA)
  /-- VRMAX_F32 (R173) -/
  | vrmaxF32 (u : MUnit) (f : FmtA)
  /-- VSEED (R117) -/
  | vseed (u : MUnit) (f : FmtA)
  /-- VCVT (R175) -/
  | vcvt (u : MUnit) (f : FmtA) (fn : BitVec 10)
  /-- VQMX (R176) -/
  | vqmx (u : MUnit) (f : FmtA)
  /-- VDQMX (R177) -/
  | vdqmx (u : MUnit) (f : FmtA)
  /-- VLD (R180) -/
  | vld (u : MUnit) (f : FmtC)
  /-- VST (R181) -/
  | vst (u : MUnit) (f : FmtC)
  /-- VPERM (R180) -/
  | vperm (u : MUnit) (f : FmtC)
  /-- VPERM_B (R180) -/
  | vpermB (u : MUnit) (f : FmtC)
  /-- VRCP_F32 (R182) -/
  | vrcpF32 (u : MUnit) (f : FmtA)
  /-- VRSQRT_F32 (R182) -/
  | vrsqrtF32 (u : MUnit) (f : FmtA)
  /-- VSQRT_F32 (R182) -/
  | vsqrtF32 (u : MUnit) (f : FmtA)
  /-- VEXP2_F32 (R182) -/
  | vexp2F32 (u : MUnit) (f : FmtA)
  /-- VEXP_F32 (R182) -/
  | vexpF32 (u : MUnit) (f : FmtA)
  /-- VLOG2_F32 (R182) -/
  | vlog2F32 (u : MUnit) (f : FmtA)
  /-- VLN_F32 (R182) -/
  | vlnF32 (u : MUnit) (f : FmtA)
  /-- VSIN_F32 (R182) -/
  | vsinF32 (u : MUnit) (f : FmtA)
  /-- VCOS_F32 (R182) -/
  | vcosF32 (u : MUnit) (f : FmtA)
  /-- VTANH_F32 (R182) -/
  | vtanhF32 (u : MUnit) (f : FmtA)
  /-- VSIGMOID_F32 (R182) -/
  | vsigmoidF32 (u : MUnit) (f : FmtA)
  /-- ADD (R185) -/
  | add (u : MUnit) (f : FmtA)
  /-- SUB (R185) -/
  | sub (u : MUnit) (f : FmtA)
  /-- AND (R185) -/
  | and (u : MUnit) (f : FmtA)
  /-- OR (R185) -/
  | or (u : MUnit) (f : FmtA)
  /-- XOR (R185) -/
  | xor (u : MUnit) (f : FmtA)
  /-- SHL (R185) -/
  | shl (u : MUnit) (f : FmtA)
  /-- SHR (R185) -/
  | shr (u : MUnit) (f : FmtA)
  /-- SRA (R185) -/
  | sra (u : MUnit) (f : FmtA)
  /-- MIN (R185) -/
  | min (u : MUnit) (f : FmtA)
  /-- MAX (R185) -/
  | max (u : MUnit) (f : FmtA)
  /-- MINU (R185) -/
  | minu (u : MUnit) (f : FmtA)
  /-- MAXU (R185) -/
  | maxu (u : MUnit) (f : FmtA)
  /-- CLZ (R185) -/
  | clz (u : MUnit) (f : FmtA)
  /-- CTZ (R185) -/
  | ctz (u : MUnit) (f : FmtA)
  /-- POPC (R185) -/
  | popc (u : MUnit) (f : FmtA)
  /-- ADDI (R185) -/
  | addi (u : MUnit) (f : FmtB)
  /-- SUBI (R185) -/
  | subi (u : MUnit) (f : FmtB)
  /-- ANDI (R185) -/
  | andi (u : MUnit) (f : FmtB)
  /-- ORI (R185) -/
  | ori (u : MUnit) (f : FmtB)
  /-- XORI (R185) -/
  | xori (u : MUnit) (f : FmtB)
  /-- SHLI (R185) -/
  | shli (u : MUnit) (f : FmtB)
  /-- SHRI (R185) -/
  | shri (u : MUnit) (f : FmtB)
  /-- SRAI (R185) -/
  | srai (u : MUnit) (f : FmtB)
  /-- MINI (R185) -/
  | mini (u : MUnit) (f : FmtB)
  /-- MAXI (R185) -/
  | maxi (u : MUnit) (f : FmtB)
  /-- MINUI (R185) -/
  | minui (u : MUnit) (f : FmtB)
  /-- MAXUI (R185) -/
  | maxui (u : MUnit) (f : FmtB)
  /-- MUL (R185) -/
  | mul (u : MUnit) (f : FmtA)
  /-- MULH (R185) -/
  | mulh (u : MUnit) (f : FmtA)
  /-- MULHU (R185) -/
  | mulhu (u : MUnit) (f : FmtA)
  /-- DIV (R186) -/
  | div (u : MUnit) (f : FmtA)
  /-- DIVU (R186) -/
  | divu (u : MUnit) (f : FmtA)
  /-- REM (R186) -/
  | rem (u : MUnit) (f : FmtA)
  /-- REMU (R186) -/
  | remu (u : MUnit) (f : FmtA)
  /-- MOVI (R185) -/
  | movi (u : MUnit) (f : FmtB)
  /-- MOVZ (R185) -/
  | movz (u : MUnit) (f : FmtB)
  /-- MOVHI (R185) -/
  | movhi (u : MUnit) (f : FmtB)
  /-- CEQ (R185) -/
  | ceq (u : MUnit) (f : FmtA)
  /-- CNE (R185) -/
  | cne (u : MUnit) (f : FmtA)
  /-- CLT (R185) -/
  | clt (u : MUnit) (f : FmtA)
  /-- CLE (R185) -/
  | cle (u : MUnit) (f : FmtA)
  /-- CLTU (R185) -/
  | cltu (u : MUnit) (f : FmtA)
  /-- CLEU (R185) -/
  | cleu (u : MUnit) (f : FmtA)
  /-- CEQI (R185) -/
  | ceqi (u : MUnit) (f : FmtB)
  /-- CNEI (R185) -/
  | cnei (u : MUnit) (f : FmtB)
  /-- CLTI (R185) -/
  | clti (u : MUnit) (f : FmtB)
  /-- CLEI (R185) -/
  | clei (u : MUnit) (f : FmtB)
  /-- CLTUI (R185) -/
  | cltui (u : MUnit) (f : FmtB)
  /-- CLEUI (R185) -/
  | cleui (u : MUnit) (f : FmtB)
  /-- PAND (R185) -/
  | pand (u : MUnit) (f : FmtA)
  /-- POR (R185) -/
  | por (u : MUnit) (f : FmtA)
  /-- PXOR (R185) -/
  | pxor (u : MUnit) (f : FmtA)
  /-- PNOT (R185) -/
  | pnot (u : MUnit) (f : FmtA)
  /-- PFROMS (R187) -/
  | pfroms (u : MUnit) (f : FmtA)
  /-- PTOS (R187) -/
  | ptos (u : MUnit) (f : FmtA)
  /-- PCNT (R185) -/
  | pcnt (u : MUnit) (f : FmtA)
  /-- BR (R188) -/
  | br (u : MUnit) (f : FmtB)
  /-- CALL (R188) -/
  | call (u : MUnit) (f : FmtB)
  /-- JR (R188) -/
  | jr (u : MUnit) (f : FmtB)
  /-- JALR (R188) -/
  | jalr (u : MUnit) (f : FmtB)
  /-- BNZ (R188) -/
  | bnz (u : MUnit) (f : FmtB)
  /-- FETCH (R189) -/
  | fetch (u : MUnit)
  /-- CSRR (R190) -/
  | csrr (u : MUnit) (f : FmtE)
  /-- CSRW (R190) -/
  | csrw (u : MUnit) (f : FmtE)
  /-- CSRS (R190) -/
  | csrs (u : MUnit) (f : FmtE)
  /-- CSRC (R190) -/
  | csrc (u : MUnit) (f : FmtE)
  /-- FCLR (R191) -/
  | fclr (u : MUnit) (f : FmtE)
  /-- END (R193) -/
  | mkiEnd (u : MUnit) (f : FmtE)
  /-- END_RETIRE (R193) -/
  | endRetire (n : Fin 72)
  /-- BREAK (R192) -/
  | mkiBreak (u : MUnit) (f : FmtE)
  /-- ERET (R154) -/
  | eret (u : MUnit) (f : FmtE)
  /-- WFI (R194) -/
  | wfi (u : MUnit) (f : FmtE)
  /-- LDB (R195) -/
  | ldb (u : MUnit) (f : FmtC)
  /-- LDBS (R195) -/
  | ldbs (u : MUnit) (f : FmtC)
  /-- LDH (R195) -/
  | ldh (u : MUnit) (f : FmtC)
  /-- LDHS (R195) -/
  | ldhs (u : MUnit) (f : FmtC)
  /-- LDW (R195) -/
  | ldw (u : MUnit) (f : FmtC)
  /-- LDWS (R195) -/
  | ldws (u : MUnit) (f : FmtC)
  /-- LDD (R195) -/
  | ldd (u : MUnit) (f : FmtC)
  /-- STB (R197) -/
  | stb (u : MUnit) (f : FmtC)
  /-- STH (R197) -/
  | sth (u : MUnit) (f : FmtC)
  /-- STW (R197) -/
  | stw (u : MUnit) (f : FmtC)
  /-- STD (R197) -/
  | std (u : MUnit) (f : FmtC)
  /-- LDP (R198) -/
  | ldp (u : MUnit) (f : FmtC)
  /-- STP (R198) -/
  | stp (u : MUnit) (f : FmtC)
  /-- LDWD (R197) -/
  | ldwd (u : MUnit) (f : FmtC)
  /-- LDDD (R197) -/
  | lddd (u : MUnit) (f : FmtC)
  /-- STWD (R197) -/
  | stwd (u : MUnit) (f : FmtC)
  /-- STDD (R197) -/
  | stdd (u : MUnit) (f : FmtC)
  /-- LDRES (R200) -/
  | ldres (u : MUnit) (f : FmtC)
  /-- STCOND (R374) -/
  | stcond (u : MUnit) (f : FmtC)
  /-- RAM (R202) -/
  | ram (u : MUnit) (f : FmtC) (fn : BitVec 4)
  /-- CLN (R203) -/
  | cln (u : MUnit) (f : FmtC)
  /-- CFL (R203) -/
  | cfl (u : MUnit) (f : FmtC)
  /-- LFLD (R205) -/
  | lfld (u : MUnit) (f : FmtC)
  /-- LFLDN (R205) -/
  | lfldn (u : MUnit) (f : FmtC)
  /-- LFST (R205) -/
  | lfst (u : MUnit) (f : FmtC)
  /-- LFSTN (R205) -/
  | lfstn (u : MUnit) (f : FmtC)
  /-- LFLDW (R205) -/
  | lfldw (u : MUnit) (f : FmtC)
  /-- LFLDWN (R205) -/
  | lfldwn (u : MUnit) (f : FmtC)
  /-- LFQ (R204) -/
  | lfq (u : MUnit) (f : FmtC) (fn : BitVec 4)
  /-- SCSIG (R208) -/
  | scsig (u : MUnit) (f : FmtE) (fn : BitVec 6)
  /-- SIGNAL_TOKEN_FIRE (R208) -/
  | signalTokenFire (n : Fin 72) (q : QueueId)
  /-- SCWAIT (R209) -/
  | scwait (u : MUnit) (f : FmtE) (fn : BitVec 6)
  /-- SCWAIT_RELEASE (R209) -/
  | scwaitRelease (n : Fin 72) (q : QueueId)
  /-- SCSET (R210) -/
  | scset (u : MUnit) (f : FmtE) (fn : BitVec 6)
  /-- SCREAD (R207) -/
  | scread (u : MUnit) (f : FmtE) (fn : BitVec 6)
  /-- MORTAR (R212) -/
  | mortar (u : MUnit) (f : FmtE)
  /-- MORTAR_RETIRE (R367) -/
  | mortarRetire (u : MUnit)
  /-- CHARGE_START (R228) -/
  | chargeStart (n : Fin 72)
  /-- CHARGE_DONE (R228) -/
  | chargeDone (n : Fin 72)
  /-- FAILOVER (R232) -/
  | failover (n : Fin 72)
  /-- STREAM_SET (R583) -/
  | streamSet (q : Fin 2048) (c : CmdArgs)
  /-- STREAM_FREE (R583) -/
  | streamFree (q : Fin 2048) (c : CmdArgs)
  /-- STREAM_QUERY (R215) -/
  | streamQuery (q : Fin 2048) (c : CmdArgs)
  /-- POUR_OPEN (R220) -/
  | pourOpen (q : Fin 2048) (c : CmdArgs)
  /-- POUR_CLOSE (R222) -/
  | pourClose (q : Fin 2048) (c : CmdArgs)
  /-- POUR_QUERY (R215) -/
  | pourQuery (q : Fin 2048) (c : CmdArgs)
  /-- FLASK_LOAD (R403) -/
  | flaskLoad (q : Fin 2048) (c : CmdArgs)
  /-- FLASK_FREE (R402) -/
  | flaskFree (q : Fin 2048) (c : CmdArgs)
  /-- FLASK_QUERY (R402) -/
  | flaskQuery (q : Fin 2048) (c : CmdArgs)
  /-- NOP (R426) -/
  | nop (q : Fin 2048) (c : CmdArgs)
  /-- LADLE (R410) -/
  | ladle (q : Fin 2048) (c : CmdArgs)
  /-- LADLE_ISSUE (R413) -/
  | ladleIssue (l : Fin 64)
  /-- FRAGMENT_COMPLETE (R414) -/
  | fragmentComplete (l : Fin 64) (i : Fin 64)
  /-- LADLE_RESET (R519) -/
  | ladleReset (l : Fin 64)
  /-- LADLE_SELFTEST_END (R519) -/
  | ladleSelftestEnd (l : Fin 64) (pass : Bool)
  /-- SQ_TAIL (R427) -/
  | sqTail (q : Fin 2048) (v : Word)
  /-- SLOT_CONSUME (R428) -/
  | slotConsume (q : Fin 2048)
  /-- SEAL_REREAD (R429) -/
  | sealReread (q : Fin 2048)
  /-- SLOT_TAKEN (R432) -/
  | slotTaken (q : Fin 2048)
  /-- RECORD_WRITE (R434) -/
  | recordWrite (q : Fin 2048)
  /-- NOTICE_WRITE (R443) -/
  | noticeWrite (h : Fin 128)
  /-- CQ_HEAD (R435) -/
  | cqHead (q : Fin 2048) (v : Word)
  /-- NQ_HEAD (R443) -/
  | nqHead (h : Fin 128) (v : Word)
  /-- QUEUE_ENABLE (R445) -/
  | queueEnable (r : Requester) (q : Fin 2048)
  /-- QUEUE_DISABLE (R445) -/
  | queueDisable (r : Requester) (q : Fin 2048)
  /-- QUEUE_RESUME (R440) -/
  | queueResume (r : Requester) (q : Fin 2048)
  /-- GT_NQ_CFG (R444) -/
  | gtNqCfg (r : Requester) (h : Fin 128) (p : Page) (d : Reg)
  /-- RDS (R284) -/
  | rds (m : Msg)
  /-- RDX (R284) -/
  | rdx (m : Msg)
  /-- UPG (R284) -/
  | upg (m : Msg)
  /-- RDC (R284) -/
  | rdc (m : Msg)
  /-- WRF (R284) -/
  | wrf (m : Msg)
  /-- WRP (R284) -/
  | wrp (m : Msg)
  /-- WBD (R303) -/
  | wbd (m : Msg)
  /-- WBK (R303) -/
  | wbk (m : Msg)
  /-- EVC (R303) -/
  | evc (m : Msg)
  /-- RAMMER_COMBINE (R322) -/
  | rammerCombine (m : Msg)
  /-- RETRY (R293) -/
  | retry (m : Msg)
  /-- RGRANT (R293) -/
  | rgrant (m : Msg)
  /-- SNPFWDS (R302) -/
  | snpfwds (m : Msg)
  /-- SNPFWDX (R302) -/
  | snpfwdx (m : Msg)
  /-- SNPCUR (R302) -/
  | snpcur (m : Msg)
  /-- SNPINV (R302) -/
  | snpinv (m : Msg)
  /-- SNPGETI (R302) -/
  | snpgeti (m : Msg)
  /-- SNPINVG (R279) -/
  | snpinvg (m : Msg)
  /-- TAGQ (R315) -/
  | tagq (m : Msg)
  /-- SNPACK (R303) -/
  | snpack (m : Msg)
  /-- SNPDATA (R297) -/
  | snpdata (m : Msg)
  /-- TAGR (R313) -/
  | tagr (m : Msg)
  /-- CMP (R302) -/
  | cmp (m : Msg)
  /-- CMPX (R374) -/
  | cmpx (m : Msg)
  /-- DATAX (R305) -/
  | datax (m : Msg)
  /-- DATAD (R305) -/
  | datad (m : Msg)
  /-- DATAS (R282) -/
  | datas (m : Msg)
  /-- DATAL (R278) -/
  | datal (m : Msg)
  /-- DATAC (R282) -/
  | datac (m : Msg)
  /-- MEMRD (R283) -/
  | memrd (m : HostReq)
  /-- MEMRDDATA (R283) -/
  | memrddata (m : HostReq)
  /-- MEMINV (R283) -/
  | meminv (m : HostReq)
  /-- MEMWR (R306) -/
  | memwr (m : HostReq)
  /-- MEMWRPTL (R283) -/
  | memwrptl (m : HostReq)
  /-- MEMCLNEVCT (R283) -/
  | memclnevct (m : HostReq)
  /-- BIRSPI (R283) -/
  | birspi (m : HostReq)
  /-- BIRSPS (R283) -/
  | birsps (m : HostReq)
  /-- BIRSPE (R283) -/
  | birspe (m : HostReq)
  /-- BICONFLICT (R306) -/
  | biconflict (m : HostReq)
  /-- SNOOP_TIMEOUT (R307) -/
  | snoopTimeout (k : Fin 24) (n : Fin 72) (line : Nat)
  /-- BI_TIMEOUT (R308) -/
  | biTimeout (k : Fin 24) (h : Fin 128) (line : Nat)
  /-- TAGR_TIMEOUT (R313) -/
  | tagrTimeout (k : Fin 24) (n : Fin 72) (line : Nat)
  /-- RECLAIM_SWEEP_END (R312) -/
  | reclaimSweepEnd (k : Fin 24)
  /-- CLEAN (R340) -/
  | clean (r : Requester) (n : Fin 72)
  /-- FLUSH (R340) -/
  | flush (r : Requester) (n : Fin 72)
  /-- CLEAN_ALL (R340) -/
  | cleanAll (r : Requester) (n : Fin 72)
  /-- FLUSH_ALL (R340) -/
  | flushAll (r : Requester) (n : Fin 72)
  /-- RANGE_COMMAND_END (R341) -/
  | rangeCommandEnd (n : Fin 72)
  /-- CACHE_DRAIN_END (R345) -/
  | cacheDrainEnd (n : Fin 72)
  /-- CACHE_INVALIDATE_END (R339) -/
  | cacheInvalidateEnd (n : Fin 72)
  /-- HEARTH_DRAIN_END (R353) -/
  | hearthDrainEnd (k : Fin 24)
  /-- HEARTH_INVALIDATE_END (R354) -/
  | hearthInvalidateEnd (k : Fin 24)
  /-- RD (R535) -/
  | rd (k : Fin 24) (sla : BitVec 30) (st : PortStatus) (die : BitVec 4)
  /-- WR (R534) -/
  | wr (k : Fin 24) (sla : BitVec 30)
  /-- SCRUB (R542) -/
  | scrub (k : Fin 24) (st : PortStatus) (die : BitVec 4)
  /-- REG (R534) -/
  | reg (k : Fin 24) (regno : PortReg) (v : Word)
  /-- MP_TIMEOUT (R537) -/
  | mpTimeout (k : Fin 24)
  /-- SCRUB_START (R542) -/
  | scrubStart (r : Requester) (k : Fin 24)
  /-- SCRUB_STOP (R542) -/
  | scrubStop (r : Requester) (k : Fin 24)
  /-- LOG_CLEAR (R541) -/
  | logClear (r : Requester) (k : Fin 24)
  /-- WR_RAW (R543) -/
  | wrRaw (r : Requester) (k : Fin 24)
  /-- RD_RAW (R543) -/
  | rdRaw (r : Requester) (k : Fin 24) (st : PortStatus)
  /-- SPRUE_MESSAGE (R384) -/
  | sprueMessage (x : Fin 100) (p : RPort) (m : NetMsg)
  /-- FLIT (R392) -/
  | flit (x : Fin 100) (p : SPort) (j : Fin 6) (crcOk : Bool) (flit : Flit) (replays : Nat)
  /-- ESCAPE_MOVE (R383) -/
  | escapeMove (x : Fin 100) (p : RPort) (vn : Vn)
  /-- LINK_TRAINED (R390) -/
  | linkTrained (x : Fin 100) (p : SPort) (modules : Fin 7) (spares : BitVec 8)
  /-- LINK_ABSENT (R389) -/
  | linkAbsent (x : Fin 100) (p : SPort)
  /-- RETRAIN_END (R392) -/
  | retrainEnd (x : Fin 100) (p : SPort) (modules : Fin 7) (spares : BitVec 8) (progress : Bool) (sideband : Bool)
  /-- SP_ROUTE (R386) -/
  | spRoute (r : Requester) (x : Fin 100) (dest : Fin 100) (p : Page) (d : Reg)
  /-- LINK_L0 (R448) -/
  | linkL0 (g : Fin 8) (l : LinkInfo)
  /-- LINK_RETRAIN (R461) -/
  | linkRetrain (g : Fin 8)
  /-- RETRAIN_TIMEOUT (R461) -/
  | retrainTimeout (g : Fin 8)
  /-- LINK_DOWN (R460) -/
  | linkDown (g : Fin 8)
  /-- HOT_RESET (R460) -/
  | hotReset (g : Fin 8)
  /-- FUNDAMENTAL_RESET (R460) -/
  | fundamentalReset (g : Fin 8)
  /-- MASTER_ENABLE_CLEAR (R463) -/
  | masterEnableClear (h : Fin 128)
  /-- MASTER_ENABLE_SET (R463) -/
  | masterEnableSet (h : Fin 128)
  /-- FLR (R464) -/
  | flr (h : Fin 128)
  /-- FLR_COMPLETE (R464) -/
  | flrComplete (h : Fin 128)
  /-- D3HOT (R439) -/
  | d3hot (h : Fin 128)
  /-- D0_RETURN (R439) -/
  | d0Return (h : Fin 128)
  /-- HDM_COMMIT (R456) -/
  | hdmCommit (h : Fin 128) (f : HdmFields)
  /-- HOST_COMPLETION (R459) -/
  | hostCompletion (g : Fin 8) (tag : Nat) (data : LineData) (st : CplStatus)
  /-- COMPLETION_TIMEOUT (R458) -/
  | completionTimeout (g : Fin 8) (tag : Nat)
  /-- TAG_RELEASE (R459) -/
  | tagRelease
  /-- MSI_X_SEND (R455) -/
  | msiXSend (h : Fin 128) (v : Fin 256)
  /-- IDE_FAIL (R469) -/
  | ideFail (g : Fin 8) (i : Fin 17)
  /-- MCTP_MESSAGE (R470) -/
  | mctpMessage (b : MctpBinding) (ty : BitVec 8)
  /-- GET_DCD_INFO (R253) -/
  | getDcdInfo
  /-- GET_HOST_DC_REGION_CONFIGURATION (R253) -/
  | getHostDcRegionConfiguration (h : Fin 128)
  /-- SET_DC_REGION_CONFIGURATION (R253) -/
  | setDcRegionConfiguration (h : Fin 128) (blockBytes : Nat) (sanitize : Bool)
  /-- GET_DCD_EXTENT_LISTS (R253) -/
  | getDcdExtentLists (h : Fin 128)
  /-- INITIATE_DYNAMIC_CAPACITY_ADD (R254) -/
  | initiateDynamicCapacityAdd (h : Fin 128) (a : AddReq)
  /-- INITIATE_DYNAMIC_CAPACITY_RELEASE (R256) -/
  | initiateDynamicCapacityRelease (h : Fin 128) (first : Nat) (forced : Bool)
  /-- SET_REGION_PLACEMENT (R257) -/
  | setRegionPlacement (d : Fin 8) (near : Bool)
  /-- GET_REGION_PLACEMENT (R253) -/
  | getRegionPlacement
  /-- GET_DYNAMIC_CAPACITY_CONFIGURATION (R255) -/
  | getDynamicCapacityConfiguration (h : Fin 128)
  /-- GET_DYNAMIC_CAPACITY_EXTENT_LIST (R255) -/
  | getDynamicCapacityExtentList (h : Fin 128)
  /-- ADD_DYNAMIC_CAPACITY_RESPONSE (R255) -/
  | addDynamicCapacityResponse (h : Fin 128) (firsts : List Nat)
  /-- RELEASE_DYNAMIC_CAPACITY (R256) -/
  | releaseDynamicCapacity (h : Fin 128) (first : Nat)
  /-- PRSNT_CHANGE (R474) -/
  | prsntChange (g : Fin 8) (present : Bool)
  /-- ATTN_PRESS (R474) -/
  | attnPress (g : Fin 8)
  /-- SLOT_SCAN (R476) -/
  | slotScan
  /-- ATTACH (R477) -/
  | attach (g : Fin 8)
  /-- POWERING_TIMEOUT (R477) -/
  | poweringTimeout (g : Fin 8)
  /-- TRAINING_TIMEOUT (R477) -/
  | trainingTimeout (g : Fin 8)
  /-- DETACH_PENDING_TIMEOUT (R476) -/
  | detachPendingTimeout (g : Fin 8)
  /-- DETACH (R478) -/
  | detach (g : Fin 8)
  /-- RELEASE_SWEEP (R478) -/
  | releaseSweep (g : Fin 8)
  /-- RELEASE_SWEEP_END (R478) -/
  | releaseSweepEnd (g : Fin 8)
  /-- LINK_EN (R475) -/
  | linkEn (r : Requester) (g : Fin 8) (p : Page) (d : Reg)
  /-- GET_INFO (R491) -/
  | getInfo (h : Fin 128)
  /-- SLOT_ATTACH (R491) -/
  | slotAttach (h : Fin 128)
  /-- SLOT_DETACH (R491) -/
  | slotDetach (h : Fin 128)
  /-- SLOT_QUERY (R491) -/
  | slotQuery (h : Fin 128)
  /-- GET_FW_INFO (R488) -/
  | getFwInfo
  /-- TRANSFER_FW (R488) -/
  | transferFw (slot : FwSlot) (img : FwImage) (last : Bool)
  /-- ACTIVATE_FW (R488) -/
  | activateFw (slot : FwSlot) (online : Bool)
  /-- SPDM_REQUEST (R489) -/
  | spdmRequest (req : SpdmReq)
  /-- BOOT (R487) -/
  | boot (porst : Bool) (passed : BitVec 4)
  /-- BEAT (R494) -/
  | beat (e : Fin 4) (c : Fin 4) (d : Reg)
  /-- HANDOVER (R495) -/
  | handover (r : Requester)
  /-- CORE_RELEASE (R487) -/
  | coreRelease (e : Fin 4) (c : Fin 4) (d : Reg)
  /-- IPI_RAISE (R497) -/
  | ipiRaise (e : Fin 4) (c : Fin 4) (d : Reg)
  /-- IPI_CLEAR (R497) -/
  | ipiClear (e : Fin 4) (c : Fin 4) (d : Reg)
  /-- FAULT_EVENT (R500) -/
  | faultEvent (ev : FaultEv) (within : Bool)
  /-- FT_FORCE (R503) -/
  | ftForce (r : Requester) (v : Word)
  /-- CLEAR_FIRST (R505) -/
  | clearFirst (r : Requester)
  /-- FT_Q_HEAD (R506) -/
  | ftQHead (r : Requester) (v : Word)
  /-- HELD_EVENT_ENTRY (R507) -/
  | heldEventEntry
  /-- FT_PIN_HOLD (R508) -/
  | ftPinHold (r : Requester) (p : Page) (d : Reg)
  /-- FAULT_N_PULSE_END (R508) -/
  | faultNPulseEnd
  /-- PWR_WARN (R510) -/
  | pwrWarn
  /-- THERM_HIGH (R512) -/
  | thermHigh (x : Fin 100)
  /-- THERM_TRIP (R512) -/
  | thermTrip (x : Fin 100)
  /-- THERM_CLEAR (R512) -/
  | thermClear
  /-- KS_OUT (R514) -/
  | ksOut (k : Fin 24)
  /-- FREEZE (R528) -/
  | freeze (r : Requester)
  /-- THAW (R528) -/
  | thaw (r : Requester)
  /-- CLEAR (R529) -/
  | clear (r : Requester)
  /-- AUTO_THAW (R528) -/
  | autoThaw
  /-- PORST_N_LOW (R547) -/
  | porstNLow
  /-- PORST_N_RISE (R547) -/
  | porstNRise
  /-- BRINGUP_STEP (R548) -/
  | bringupStep (i : Fin 13) (o : BringupObs)
  /-- CHIP_RESET (R552) -/
  | chipReset (cause : ResetCause)
  /-- CHIP_RESET_COMMAND (R565) -/
  | chipResetCommand (r : Requester) (d : Reg)
  /-- DRAIN_TIMEOUT (R552) -/
  | drainTimeout (n : Fin 72)
  /-- CHIP_RESET_LINK_TIMEOUT (R555) -/
  | chipResetLinkTimeout
  /-- PWR_FAIL (R562) -/
  | pwrFail
  /-- PWR_FAIL_RECOVER (R563) -/
  | pwrFailRecover
  /-- BYPASS (R581) -/
  | bypass (x : Fin 100)
  /-- SAMPLE_PRELOAD (R581) -/
  | samplePreload (x : Fin 100)
  /-- EXTEST (R582) -/
  | extest (x : Fin 100)
  /-- IDCODE (R581) -/
  | idcode (x : Fin 100)
  /-- REGACC (R581) -/
  | regacc (x : Fin 100) (wr : Bool) (a : BitVec 32) (sz : AccSize) (d : Word)
  /-- TRST_N (R582) -/
  | trstN
  /-- PWR_WARN_N_HIGH (R510) -/
  | pwrWarnNHigh
  /-- PERST_N_RELEASE (R477) -/
  | perstNRelease (g : Fin 8)
  /-- ROUTER_FAILED (R395) -/
  | routerFailed (x : Fin 100)
  /-- CHANNEL_RETRAIN_FAILED (R537) -/
  | channelRetrainFailed (k : Fin 24) (j : Fin 16)
  /-- LINK_RETURN_TIMEOUT (R480) -/
  | linkReturnTimeout (g : Fin 8)
  /-- FLR_SANITIZE_END (R465) -/
  | flrSanitizeEnd (h : Fin 128)
  /-- IDE_KEYS_PROGRAMMED (R469) -/
  | ideKeysProgrammed (g : Fin 8) (i : Fin 17)
  /-- H2D_SNOOP (R452) -/
  | h2dSnoop (g : Fin 8) (line : Nat)
  /-- TRST_N_RELEASE (R582) -/
  | trstNRelease
  deriving DecidableEq, Repr

end Sys2Proof
end

