-- ==== Sys2Proof/Decode.lean ====
section
/-! DEFINITION. Words and commands. spec/opcode_table.json gives its rows no bits: the block takes commands, and no word of the table
spells one. The words of MKI code (Table 6.3) have bits of their own, which the fetch of a unit reads (R143 to R146, R189). -/

namespace Sys2Proof

/-- The command a word spells by the table's bits: the table gives no row bits, so no word spells a command. -/
def decodeTableWord (_nbits _w : Nat) : Option Instr := none

/-! ## MKI words (Table 6.3) -/

/-- Bits [lo + n - 1 : lo] of an instruction word. -/
def wordBits (w : Word) (lo n : Nat) : BitVec n := w.extractLsb' lo n

/-- Bit i of an instruction word. -/
def wordBit (w : Word) (i : Nat) : Bool := w.getLsbD i

/-- PE, PR and PN: bits [55:50] in every format. -/
def guardOf (w : Word) : Guard := ⟨wordBit w 55, wordBits w 51 4, wordBit w 50⟩

/-- Format A: D [49:44], A [43:38], B [37:32], C [31:26], FN [25:16], RM [15:14], SAT [13], TY [12:8], reserved [7:0]. -/
def fmtAOf (w : Word) : FmtA :=
  ⟨guardOf w, wordBits w 44 6, wordBits w 38 6, wordBits w 32 6, wordBits w 26 6, wordBits w 14 2, wordBit w 13, wordBits w 8 5, wordBits w 0 8⟩

/-- Format B: D [49:44], A [43:38], FN [37:32], IMM [31:0]. -/
def fmtBOf (w : Word) : FmtB := ⟨guardOf w, wordBits w 44 6, wordBits w 38 6, wordBits w 0 32⟩

/-- Format C: D [49:44], BASE [43:38], IDX [37:32], FN [31:28], SH [27:26], reserved [25:24], OFF [23:0]. -/
def fmtCOf (w : Word) : FmtC :=
  ⟨guardOf w, wordBits w 44 6, wordBits w 38 6, wordBits w 32 6, wordBits w 26 2, wordBits w 24 2, wordBits w 0 24⟩

/-- Format D: MU [49], T [48:47], SA [46:41], SB [40:35], SX [34:29], TYA [28:24], TYB [23:19], RM [18:17], SAT [16], Z [15],
FN [14:9], reserved [8:0]. -/
def fmtDOf (w : Word) : FmtD :=
  ⟨guardOf w, wordBit w 49, wordBits w 47 2, wordBits w 41 6, wordBits w 35 6, wordBits w 29 6, wordBits w 24 5, wordBits w 19 5,
    wordBits w 17 2, wordBit w 16, wordBit w 15, wordBits w 0 9⟩

/-- Format E: SC [49:45], A [44:39], FN [38:33], reserved [32], IMM [31:0]. -/
def fmtEOf (w : Word) : FmtE := ⟨guardOf w, wordBits w 45 5, wordBits w 39 6, wordBit w 32, wordBits w 0 32⟩

/-- Instructions of format A by OP and FN (Tables 8.2, 7.8, 7.11). -/
def mkiA (u : MUnit) (f : FmtA) (op fn : Nat) : Option Instr :=
  match op, fn with
  | 0x01, 0x0 => some (.add u f) | 0x01, 0x1 => some (.sub u f) | 0x01, 0x2 => some (.and u f) | 0x01, 0x3 => some (.or u f)
  | 0x01, 0x4 => some (.xor u f) | 0x01, 0x5 => some (.shl u f) | 0x01, 0x6 => some (.shr u f) | 0x01, 0x7 => some (.sra u f)
  | 0x01, 0x8 => some (.min u f) | 0x01, 0x9 => some (.max u f) | 0x01, 0xA => some (.minu u f) | 0x01, 0xB => some (.maxu u f)
  | 0x01, 0xC => some (.clz u f) | 0x01, 0xD => some (.ctz u f) | 0x01, 0xE => some (.popc u f)
  | 0x03, 0x0 => some (.mul u f) | 0x03, 0x1 => some (.mulh u f) | 0x03, 0x2 => some (.mulhu u f) | 0x03, 0x3 => some (.div u f)
  | 0x03, 0x4 => some (.divu u f) | 0x03, 0x5 => some (.rem u f) | 0x03, 0x6 => some (.remu u f)
  | 0x05, 0x0 => some (.ceq u f) | 0x05, 0x1 => some (.cne u f) | 0x05, 0x2 => some (.clt u f) | 0x05, 0x3 => some (.cle u f)
  | 0x05, 0x4 => some (.cltu u f) | 0x05, 0x5 => some (.cleu u f)
  | 0x07, 0x0 => some (.pand u f) | 0x07, 0x1 => some (.por u f) | 0x07, 0x2 => some (.pxor u f) | 0x07, 0x3 => some (.pnot u f)
  | 0x07, 0x4 => some (.pfroms u f) | 0x07, 0x5 => some (.ptos u f) | 0x07, 0x6 => some (.pcnt u f)
  | 0x60, 0x0 => some (.vaddF32 u f) | 0x60, 0x1 => some (.vsubF32 u f) | 0x60, 0x2 => some (.vmulF32 u f)
  | 0x60, 0x3 => some (.vfmaF32 u f) | 0x60, 0x4 => some (.vfnmaF32 u f) | 0x60, 0x5 => some (.vminF32 u f)
  | 0x60, 0x6 => some (.vmaxF32 u f) | 0x60, 0x7 => some (.vabsF32 u f) | 0x60, 0x8 => some (.vnegF32 u f)
  | 0x61, 0x0 => some (.vadd u f) | 0x61, 0x1 => some (.vsub u f) | 0x61, 0x2 => some (.vmul u f) | 0x61, 0x3 => some (.vadds u f)
  | 0x61, 0x4 => some (.vsubs u f) | 0x61, 0x5 => some (.vmin u f) | 0x61, 0x6 => some (.vmax u f) | 0x61, 0x8 => some (.vand u f)
  | 0x61, 0x9 => some (.vor u f) | 0x61, 0xA => some (.vxor u f) | 0x61, 0xB => some (.vshl u f) | 0x61, 0xC => some (.vshr u f)
  | 0x61, 0xD => some (.vsra u f)
  | 0x62, 0x0 => some (.vceq u f) | 0x62, 0x1 => some (.vcne u f) | 0x62, 0x2 => some (.vclt u f) | 0x62, 0x3 => some (.vcle u f)
  | 0x62, 0x4 => some (.vcgt u f) | 0x62, 0x5 => some (.vcge u f)
  | 0x63, 0x0 => some (.vsel u f) | 0x63, 0x1 => some (.vbcast u f) | 0x63, 0x2 => some (.vins u f) | 0x63, 0x3 => some (.vext u f)
  | 0x63, 0x4 => some (.vrsumF32 u f) | 0x63, 0x5 => some (.vrmaxF32 u f)
  | 0x66, 0x0 => some (.vseed u f)
  | 0x65, 0x0 => some (.vqmx u f) | 0x65, 0x1 => some (.vdqmx u f)
  | 0x80, 0x0 => some (.vrcpF32 u f) | 0x80, 0x1 => some (.vrsqrtF32 u f) | 0x80, 0x2 => some (.vsqrtF32 u f)
  | 0x80, 0x3 => some (.vexp2F32 u f) | 0x80, 0x4 => some (.vexpF32 u f) | 0x80, 0x5 => some (.vlog2F32 u f)
  | 0x80, 0x6 => some (.vlnF32 u f) | 0x80, 0x7 => some (.vsinF32 u f) | 0x80, 0x8 => some (.vcosF32 u f)
  | 0x80, 0x9 => some (.vtanhF32 u f) | 0x80, 0xA => some (.vsigmoidF32 u f)
  | _, _ => none

/-- Instructions of format B by OP and FN (Tables 8.2, 8.3). -/
def mkiB (u : MUnit) (f : FmtB) (op fn : Nat) : Option Instr :=
  match op, fn with
  | 0x02, 0x0 => some (.addi u f) | 0x02, 0x1 => some (.subi u f) | 0x02, 0x2 => some (.andi u f) | 0x02, 0x3 => some (.ori u f)
  | 0x02, 0x4 => some (.xori u f) | 0x02, 0x5 => some (.shli u f) | 0x02, 0x6 => some (.shri u f) | 0x02, 0x7 => some (.srai u f)
  | 0x02, 0x8 => some (.mini u f) | 0x02, 0x9 => some (.maxi u f) | 0x02, 0xA => some (.minui u f) | 0x02, 0xB => some (.maxui u f)
  | 0x04, 0x0 => some (.movi u f) | 0x04, 0x1 => some (.movz u f) | 0x04, 0x2 => some (.movhi u f)
  | 0x06, 0x0 => some (.ceqi u f) | 0x06, 0x1 => some (.cnei u f) | 0x06, 0x2 => some (.clti u f) | 0x06, 0x3 => some (.clei u f)
  | 0x06, 0x4 => some (.cltui u f) | 0x06, 0x5 => some (.cleui u f)
  | 0x10, 0x0 => some (.br u f)
  | 0x11, 0x0 => some (.call u f)
  | 0x12, 0x0 => some (.jr u f) | 0x12, 0x1 => some (.jalr u f)
  | 0x13, 0x0 => some (.bnz u f)
  | _, _ => none

/-- Instructions of format C by OP and FN (Tables 8.6 to 8.8, 7.10). -/
def mkiC (u : MUnit) (f : FmtC) (op fn : Nat) : Option Instr :=
  match op, fn with
  | 0x20, 0x0 => some (.ldb u f) | 0x20, 0x1 => some (.ldbs u f) | 0x20, 0x2 => some (.ldh u f) | 0x20, 0x3 => some (.ldhs u f)
  | 0x20, 0x4 => some (.ldw u f) | 0x20, 0x5 => some (.ldws u f) | 0x20, 0x6 => some (.ldd u f)
  | 0x21, 0x0 => some (.stb u f) | 0x21, 0x2 => some (.sth u f) | 0x21, 0x4 => some (.stw u f) | 0x21, 0x6 => some (.std u f)
  | 0x22, 0x0 => some (.ldp u f)
  | 0x23, 0x0 => some (.stp u f)
  | 0x25, 0x0 => some (.cln u f) | 0x25, 0x1 => some (.cfl u f)
  | 0x28, 0x0 => some (.ldres u f)
  | 0x29, 0x0 => some (.stcond u f)
  | 0x2A, 0x4 => some (.ldwd u f) | 0x2A, 0x6 => some (.lddd u f)
  | 0x2B, 0x4 => some (.stwd u f) | 0x2B, 0x6 => some (.stdd u f)
  | 0x38, 0x0 => some (.lfld u f) | 0x38, 0x1 => some (.lfldn u f)
  | 0x39, 0x0 => some (.lfst u f) | 0x39, 0x1 => some (.lfstn u f)
  | 0x3A, 0x0 => some (.lfldw u f) | 0x3A, 0x1 => some (.lfldwn u f)
  | 0x70, 0x0 => some (.vld u f)
  | 0x71, 0x0 => some (.vst u f)
  | 0x72, 0x0 => some (.vperm u f) | 0x72, 0x1 => some (.vpermB u f)
  | _, _ => none

/-- Instructions of format D by OP and FN (Tables 7.4, 7.6). -/
def mkiD (u : MUnit) (f : FmtD) (op fn : Nat) : Option Instr :=
  match op, fn with
  | 0x40, 0x0 => some (.mma u f)
  | 0x48, 0x0 => some (.tclr u f) | 0x48, 0x1 => some (.trow u f) | 0x48, 0x2 => some (.ttr u f) | 0x48, 0x3 => some (.tsclC u f)
  | 0x48, 0x4 => some (.tsclR u f)
  | 0x50, 0x0 => some (.tld u f)
  | 0x51, 0x0 => some (.tst u f)
  | 0x54, 0x0 => some (.xld u f) | 0x54, 0x1 => some (.xldn u f)
  | 0x55, 0x0 => some (.xst u f) | 0x55, 0x1 => some (.xstn u f)
  | _, _ => none

/-- Instructions of format E by OP and FN (Tables 8.4, 8.5). -/
def mkiE (u : MUnit) (f : FmtE) (op fn : Nat) : Option Instr :=
  match op, fn with
  | 0x18, 0x0 => some (.csrr u f)
  | 0x19, 0x0 => some (.csrw u f)
  | 0x1A, 0x0 => some (.csrs u f) | 0x1A, 0x1 => some (.csrc u f)
  | 0x1B, 0x0 => some (.fclr u f)
  | 0x1C, 0x0 => some (.mkiEnd u f)
  | 0x1D, 0x0 => some (.mkiBreak u f)
  | 0x1E, 0x0 => some (.eret u f) | 0x1E, 0x1 => some (.wfi u f)
  | 0x34, 0x0 => some (.mortar u f)
  | _, _ => none

/-- The instruction of unit u that a word of MKI code spells (R143 to R146): none for a reserved opcode, an OP without a format or an
FN that its OP does not define. Fields that an instruction must hold at zero are carried on, and its meaning judges them; of VCVT,
RAM, lfq and the sync-counter instructions it judges FN as well. -/
def mkiDecode (u : MUnit) (w : Word) : Option Instr :=
  let op := (wordBits w 56 8).toNat
  match op with
  | 0x24 => some (.ram u (fmtCOf w) (wordBits w 28 4))
  | 0x3B => some (.lfq u (fmtCOf w) (wordBits w 28 4))
  | 0x64 => some (.vcvt u (fmtAOf w) (wordBits w 16 10))
  | 0x30 => some (.scsig u (fmtEOf w) (wordBits w 33 6))
  | 0x31 => some (.scwait u (fmtEOf w) (wordBits w 33 6))
  | 0x32 => some (.scset u (fmtEOf w) (wordBits w 33 6))
  | 0x33 => some (.scread u (fmtEOf w) (wordBits w 33 6))
  | _ =>
    ((((mkiA u (fmtAOf w) op (wordBits w 16 10).toNat).or (mkiB u (fmtBOf w) op (wordBits w 32 6).toNat)).or
      (mkiC u (fmtCOf w) op (wordBits w 28 4).toNat)).or (mkiD u (fmtDOf w) op (wordBits w 9 6).toNat)).or
      (mkiE u (fmtEOf w) op (wordBits w 33 6).toNat)

/-- Whether a word spells an instruction; an all-zero word does not (R146). -/
def mkiDefined (w : Word) : Bool := (mkiDecode (.core 0 0) w).isSome

end Sys2Proof
end

