-- ==== Sys2Proof/Config.lean ====
section
/-! DEFINITION. What one set fixes for good and the model leaves open: fuses, the geometry of the stacks, whether a cryptographic
check passes, and the FREE VALUES. Each is an opaque constant: no proof can see its value (log entries 1, 2, 3, 4). -/

namespace Sys2Proof.Config

/-- A free 64-bit value: the `n`-th that a run takes (log entry 1). -/
opaque freeWord (n : Nat) : Word

/-- A free line of data (log entry 1). -/
opaque freeLine (n : Nat) : LineData

/-- A free choice between two allowed outcomes (log entry 1). -/
opaque freeBool (n : Nat) : Bool

/-- A free number (log entry 1). -/
opaque freeNat (n : Nat) : Nat

/-- The result bits of special function `f` for an input, where Table 5.6 gives only a bound (R130; log entry 1). -/
opaque sfuResult (f : Nat) (x : Reg) : Reg

/-- The serial fused into E-die `e` (Table 26.5; log entry 2). -/
opaque serial (e : Nat) : Word

/-- KEY_HASH fused into E-die `e` (R486; log entry 2). -/
opaque keyHash (e : Nat) : Nat

/-- The SVN floor fused before the first activation (Table 21.8, reset "Fuses"; log entry 2). -/
opaque svnFuses : BitVec 6

/-- MP_GEOM as the stack of keystone `k` answers it (Table 24.4, reset "Stack"; log entry 3). -/
opaque stackGeom (k : Nat) : Reg

/-- MP_BANK_MAPi.POS as the stack of keystone `k` answers it (Table 24.4; log entry 3). -/
opaque stackPos (k i : Nat) : BitVec 6

/-- A byte of the boot ROM, fixed for the release (Table 21.1; log entry 2). -/
opaque bootRom (a : Nat) : Byte

/-- Whether SHA-384 of a public key equals a key hash (R486; log entry 4). -/
opaque keyHashOk (pubkey hash : Nat) : Bool

/-- Whether an ECDSA P-384 signature verifies over a header (R486; log entry 4). -/
opaque signatureOk (pubkey signature header : Nat) : Bool

/-- SHA-384 of a byte string given as a number of bytes and a little-endian number (R485, R489; log entry 4). -/
opaque sha384 (length value : Nat) : BitVec 384

end Sys2Proof.Config
end

