-- ==== Sys2Proof/Machine/Data.lean ====
section
/-! DEFINITION. Plain data the state is built of: bit fields, tables from numbers to values, sets of numbers, and byte memories in
their canonical form, with the operations on them. -/

namespace Sys2Proof.Machine

open Sys2Proof

/-! Bit fields -/

/-- Bits `[lo + w - 1 : lo]` of a word, as a number. -/
def bitsOf {n : Nat} (x : BitVec n) (lo w : Nat) : Nat := (x.toNat >>> lo) % 2 ^ w

/-- One bit of a word. -/
def bitAt {n : Nat} (x : BitVec n) (i : Nat) : Bool := x.getLsbD i

/-- `x` with bits `[lo + w - 1 : lo]` replaced by the low `w` bits of `v`. -/
def setBits {n : Nat} (x : BitVec n) (lo w v : Nat) : BitVec n :=
  (x &&& ~~~(BitVec.ofNat n ((2 ^ w - 1) <<< lo))) ||| BitVec.ofNat n ((v % 2 ^ w) <<< lo)

/-- A Bool as a number. -/
def b2n (b : Bool) : Nat := if b then 1 else 0

/-- Addition that saturates at the largest `w`-bit number. -/
def satAdd (w x d : Nat) : Nat := min (x + d) (2 ^ w - 1)

/-- The mask of `w` ones from bit `lo`. -/
def maskAt (lo w : Nat) : Reg := BitVec.ofNat 32 ((2 ^ w - 1) <<< lo)

/-- Bytes of a line (R7: byte 0 is the least significant). -/
def lineByte (d : LineData) (i : Nat) : Byte := BitVec.ofNat 8 (d.toNat >>> (8 * i))

/-- Little-endian bytes as a number (R7). -/
def leNat : List Byte → Nat
  | [] => 0
  | b :: bs => b.toNat + 256 * leNat bs

/-- The `n` little-endian bytes of a number (R7). -/
def leBytes : Nat → Nat → List Byte
  | 0, _ => []
  | n + 1, v => BitVec.ofNat 8 v :: leBytes n (v / 256)

/-! Tables -/

/-- A finite table from numbers to values: entries in rising order of their numbers. -/
abbrev Tbl (α : Type) := List (Nat × α)

/-- The value a table holds under a number. -/
def tblFind {α : Type} : Tbl α → Nat → Option α
  | [], _ => none
  | (j, a) :: t, k => if j = k then some a else tblFind t k

/-- The value a table holds under a number, or the value of an absent entry. -/
def tblGet {α : Type} (t : Tbl α) (d : α) (k : Nat) : α := (tblFind t k).getD d

/-- The table with one entry set. -/
def tblSet {α : Type} : Tbl α → Nat → α → Tbl α
  | [], k, a => [(k, a)]
  | (j, b) :: t, k, a =>
    if j = k then (k, a) :: t else if k < j then (k, a) :: (j, b) :: t else (j, b) :: tblSet t k a

/-- The table without the entries of one number. -/
def tblDel {α : Type} (t : Tbl α) (k : Nat) : Tbl α := t.filter (fun e => e.1 ≠ k)

/-! Sets of numbers -/

/-- A set with one number added. -/
def setIns (l : List Nat) (k : Nat) : List Nat :=
  match l with
  | [] => [k]
  | j :: t => if j = k then l else if k < j then k :: l else j :: setIns t k

/-- A set without one number. -/
def setDel (l : List Nat) (k : Nat) : List Nat := l.filter (· ≠ k)

/-- A set with one number put in or taken out. -/
def setPut (l : List Nat) (k : Nat) (b : Bool) : List Nat := if b then setIns l k else setDel l k

/-! Byte memories -/

/-- A byte memory: cells in rising order of address, none holding the byte 0 that an unlisted address reads as. -/
abbrev Mem := List Host.Cell

/-- The byte at an address (an unlisted address reads 0). -/
def memGet : Mem → Nat → Byte
  | [], _ => 0
  | (j, b) :: m, a => if j = a then b else memGet m a

/-- The memory with one byte written; the canonical form is kept. -/
def memSet : Mem → Nat → Byte → Mem
  | [], a, b => if b = 0 then [] else [(a, b)]
  | (j, c) :: m, a, b =>
    if j = a then (if b = 0 then m else (a, b) :: m)
    else if a < j then (if b = 0 then (j, c) :: m else (a, b) :: (j, c) :: m)
    else (j, c) :: memSet m a b

/-- The memory with consecutive bytes written. -/
def memWrite : Mem → Nat → List Byte → Mem
  | m, _, [] => m
  | m, a, b :: bs => memWrite (memSet m a b) (a + 1) bs

/-- Consecutive bytes of a memory. -/
def memRead (m : Mem) (a : Nat) : Nat → List Byte
  | 0 => []
  | n + 1 => memGet m a :: memRead m (a + 1) n

/-- A 64-byte line of a memory. -/
def memLine (m : Mem) (a : Nat) : LineData := BitVec.ofNat 512 (leNat (memRead m a 64))

/-- The memory with a 64-byte line written. -/
def memSetLine (m : Mem) (a : Nat) (d : LineData) : Mem := memWrite m a (leBytes 64 d.toNat)

/-- The memory without the bytes of an address range. -/
def memClear (m : Mem) (lo n : Nat) : Mem := m.filter (fun c => c.1 < lo || lo + n ≤ c.1)

/-- The canonical form of a byte memory: addresses strictly rising, no cell equal to what an unlisted address reads as. -/
def Memory.wf : Mem → Bool
  | [] => true
  | (_, b) :: [] => b ≠ 0
  | (a, b) :: (a', b') :: m => b ≠ 0 && a < a' && Memory.wf ((a', b') :: m)

end Sys2Proof.Machine
end

