-- ==== Sys2Proof/Machine/Flags.lean ====
section
/-! DEFINITION. The arithmetic flags (Table 5.7, R131) and the rule of each: what a result contributes to the sticky flags. -/

namespace Sys2Proof.Machine

open Sys2Proof

/-- What one operation contributes to the flags of Table 5.7. -/
structure Flags where
  nv : Bool := false
  ovf : Bool := false
  uf : Bool := false
  nx : Bool := false
  sat : Bool := false
  mxnan : Bool := false
  deriving DecidableEq, Repr

/-- Sticky: ORed over all lanes and units (R131). -/
def Flags.or (a b : Flags) : Flags :=
  ⟨a.nv || b.nv, a.ovf || b.ovf, a.uf || b.uf, a.nx || b.nx, a.sat || b.sat, a.mxnan || b.mxnan⟩

/-- The bits of ASTAT (Table 6.4: MXNAN, SAT, NX, UF, OF, NV from bit 5 down). -/
def Flags.bits (f : Flags) : BitVec 6 :=
  BitVec.ofNat 6 (b2n f.nv + 2 * b2n f.ovf + 4 * b2n f.uf + 8 * b2n f.nx + 16 * b2n f.sat + 32 * b2n f.mxnan)

/-- The flags a matrix unit sets: NV and OF only (Table 5.7, R164). -/
def Flags.matrix (f : Flags) : Flags := { nv := f.nv, ovf := f.ovf }

/-- The flag a special function sets: NV only (Table 5.7). -/
def Flags.special (f : Flags) : Flags := { nv := f.nv }

/-- The flags of a list of results together. -/
def Flags.all (l : List Flags) : Flags := l.foldl Flags.or {}

end Sys2Proof.Machine
end

