-- ==== Sys2Proof/Machine/Arith.lean ====
section
/-! DEFINITION. Number formats and exact arithmetic on them (chapter 05): element formats (Table 5.1), rounding (R114, R115),
narrowing (R120), IEEE 754 arithmetic on FP32 (R124 to R126), the matrix accumulation of one element (R110 to R113), MX scales
(R105, R106, R122), the stochastic generators (R116, R117). -/

namespace Sys2Proof.Machine

open Sys2Proof

/-! ## Values and formats -/

/-- A floating-point value: a NaN, an infinity, or an exact dyadic number `(-1)^neg * m * 2^e`, zero with its sign. -/
inductive FV where
  | nan
  | inf (neg : Bool)
  | fin (neg : Bool) (m : Nat) (e : Int)
  deriving DecidableEq, Repr

/-- A floating-point element format (Table 5.1): field widths, bias, code of the largest finite magnitude, whether it has infinities,
and the canonical NaN of R103 where it has NaNs. -/
structure Fmt where
  eb : Nat
  mb : Nat
  bias : Nat
  maxc : Nat
  hasInf : Bool
  nanc : Option Nat
  deriving DecidableEq, Repr

def fp32 : Fmt := ⟨8, 23, 127, 0x7F7FFFFF, true, some 0x7FC00000⟩
def bf16 : Fmt := ⟨8, 7, 127, 0x7F7F, true, some 0x7FC0⟩
def fp16 : Fmt := ⟨5, 10, 15, 0x7BFF, true, some 0x7E00⟩
def e4m3 : Fmt := ⟨4, 3, 7, 0x7E, false, some 0x7F⟩
def e5m2 : Fmt := ⟨5, 2, 15, 0x7B, true, some 0x7E⟩
def e3m2 : Fmt := ⟨3, 2, 3, 0x1F, false, none⟩
def e2m3 : Fmt := ⟨2, 3, 1, 0x1F, false, none⟩
def e2m1 : Fmt := ⟨2, 1, 1, 0x7, false, none⟩

/-- Width of an element. -/
def Fmt.width (f : Fmt) : Nat := 1 + f.eb + f.mb

/-- The value of an element's code (R102). Codes above the largest finite one are infinity, where the format has one just above it, and
NaN. -/
def Fmt.value (f : Fmt) (b : Nat) : FV :=
  let neg := b / 2 ^ (f.eb + f.mb) % 2 == 1
  let c := b % 2 ^ (f.eb + f.mb)
  if f.maxc < c then (if f.hasInf ∧ c = f.maxc + 1 then .inf neg else .nan)
  else
    let e := c / 2 ^ f.mb
    let m := c % 2 ^ f.mb
    if e = 0 then .fin neg m (1 - (f.bias : Int) - f.mb) else .fin neg (2 ^ f.mb + m) ((e : Int) - f.bias - f.mb)

/-- An INT8 element as a value. -/
def intValue (i : Int) : FV := .fin (i < 0) i.natAbs 0

/-- Whether a value is a NaN. -/
def FV.isNan : FV → Bool
  | .nan => true
  | _ => false

/-- Whether a value is an infinity. -/
def FV.isInf : FV → Bool
  | .inf _ => true
  | _ => false

/-- The sign of a value. -/
def FV.sign : FV → Bool
  | .nan => false | .inf n => n | .fin n _ _ => n

/-- Negation. -/
def FV.neg : FV → FV
  | .nan => .nan | .inf n => .inf (!n) | .fin n m e => .fin (!n) m e

/-- Exact sum (R113): infinities of both signs give NaN; a zero sum is -0 only when both terms are negative. -/
def FV.add : FV → FV → FV
  | .nan, _ => .nan
  | _, .nan => .nan
  | .inf a, .inf b => if a = b then .inf a else .nan
  | .inf a, .fin _ _ _ => .inf a
  | .fin _ _ _, .inf b => .inf b
  | .fin a m e, .fin b n f =>
    let k := min e f
    let x : Int := (m : Int) * 2 ^ (e - k).toNat
    let y : Int := (n : Int) * 2 ^ (f - k).toNat
    let z := (if a then -x else x) + (if b then -y else y)
    .fin (if z = 0 then a && b else z < 0) z.natAbs k

/-- Exact product (R113). -/
def FV.mul : FV → FV → FV
  | .nan, _ => .nan
  | _, .nan => .nan
  | .inf a, .inf b => .inf (a != b)
  | .inf a, .fin b n _ => if n = 0 then .nan else .inf (a != b)
  | .fin a m _, .inf b => if m = 0 then .nan else .inf (a != b)
  | .fin a m e, .fin b n f => .fin (a != b) (m * n) (e + f)

/-- A value times a power of two. -/
def FV.scale (v : FV) (k : Int) : FV :=
  match v with
  | .fin n m e => .fin n m (e + k)
  | v => v

/-- A value's magnitude. -/
def FV.abs : FV → FV
  | .nan => .nan | .inf _ => .inf false | .fin _ m e => .fin false m e

/-- Whether a finite value's magnitude is at most another's. -/
def FV.leMag (x y : FV) : Bool :=
  match x, y with
  | .fin _ m e, .fin _ n f => let k := min e f; m * 2 ^ (e - k).toNat ≤ n * 2 ^ (f - k).toNat
  | _, _ => false

/-- floor(log2 |x|) of a finite non-zero value. -/
def FV.log2 : FV → Int
  | .fin _ m e => (Nat.log2 m : Int) + e
  | _ => 0

/-! ## Rounding (R114, R115) -/

/-- A rounding mode; SR carries the draw r of R116. -/
inductive Rm where
  | rne | rz | sr (r : Nat)
  deriving DecidableEq, Repr

/-- The magnitude `m * 2^e` as a multiple of `2^u`, and whether it was rounded. Under SR a value with f16 = 0 is exact (R115). -/
def roundUnit (rm : Rm) (m : Nat) (e u : Int) : Nat × Bool :=
  if u ≤ e then (m * 2 ^ (e - u).toNat, false)
  else
    let sh := (u - e).toNat
    let q := m / 2 ^ sh
    let r := m % 2 ^ sh
    match rm with
    | .rne => (if 2 ^ sh < 2 * r ∨ (2 * r = 2 ^ sh ∧ q % 2 = 1) then q + 1 else q, r != 0)
    | .rz => (q, r != 0)
    | .sr d =>
      let f16 := r * 65536 / 2 ^ sh
      (if 65536 ≤ f16 + d then q + 1 else q, f16 != 0)

/-- The code of a rounded magnitude, as if the exponent had no upper limit, and whether it was rounded. -/
def Fmt.roundMag (f : Fmt) (rm : Rm) (m : Nat) (e : Int) : Nat × Bool :=
  if m = 0 then (0, false)
  else
    let emin : Int := 1 - (f.bias : Int)
    let u := max ((Nat.log2 m : Int) + e) emin - f.mb
    let (q, x) := roundUnit rm m e u
    (if q < 2 ^ f.mb then q else (u + f.mb + f.bias).toNat * 2 ^ f.mb + (q - 2 ^ f.mb), x)

/-- A code with its sign. -/
def Fmt.signed (f : Fmt) (neg : Bool) (c : Nat) : Nat := b2n neg * 2 ^ (f.eb + f.mb) + c

/-- Narrowing of a value to a floating-point element (R120, Table 5.5), with its flags (Table 5.7). DESIGN CHOICE (log entry 20): a value
clamped under SAT = 1 sets NX only where its rounding was inexact; an overflow under SAT = 0 always sets NX, to NaN as well; and one that
RZ takes to the largest finite value sets no SAT. -/
def Fmt.narrow (f : Fmt) (rm : Rm) (sat : Bool) (v : FV) : Nat × Flags :=
  match v with
  | .nan => (match f.nanc with | some c => (c, {}) | none => (0, { nv := true }))
  | .inf neg =>
    if sat then (f.signed neg f.maxc, { sat := true })
    else if f.hasInf then (f.signed neg (f.maxc + 1), {})
    else (match f.nanc with | some c => (c, { nv := true }) | none => (f.signed neg f.maxc, { sat := true }))
  | .fin neg m e =>
    let (c, x) := f.roundMag rm m e
    if c ≤ f.maxc then (f.signed neg c, { nx := x, uf := x && c < 2 ^ f.mb })
    else if sat || f.nanc.isNone then (f.signed neg f.maxc, { sat := true, nx := x })
    else if rm = .rz then (f.signed neg f.maxc, { nx := true })
    else if f.hasInf then (f.signed neg (f.maxc + 1), { ovf := true, nx := true })
    else (f.nanc.getD 0, { ovf := true, nv := true, nx := true })

/-- A value rounded to FP32 (R124). -/
def round32 (rm : Rm) (v : FV) : Reg × Flags :=
  let (c, fl) := fp32.narrow rm false v
  (BitVec.ofNat 32 c, fl)

/-- The value of an FP32 word. -/
def f32 (x : Reg) : FV := fp32.value x.toNat

/-- Conversion to an integer of the given limits (Table 5.5, INT8 and INT32). DESIGN CHOICE (log entry 20): a clamped value sets NX only
where its rounding was inexact. -/
def toInt (rm : Rm) (lo hi : Int) (v : FV) : Int × Flags :=
  match v with
  | .nan => (0, { nv := true })
  | .inf neg => (if neg then lo else hi, { sat := true })
  | .fin neg m e =>
    let (q, x) := roundUnit rm m e 0
    let i : Int := if neg then -(q : Int) else q
    if i < lo then (lo, { sat := true, nx := x })
    else if hi < i then (hi, { sat := true, nx := x })
    else (i, { nx := x })

/-! ## FP32 arithmetic (R124 to R126) -/

/-- The canonical FP32 NaN (R103). -/
def nan32 : Reg := 0x7FC00000

/-- A result rounded to FP32, with NV when a NaN comes from operands that were not NaN (Table 5.7). -/
def finish32 (rm : Rm) (ops : List FV) (v : FV) : Reg × Flags :=
  if v.isNan then (nan32, { nv := !(ops.any FV.isNan) }) else round32 rm v

def addF32 (rm : Rm) (a b : Reg) : Reg × Flags := finish32 rm [f32 a, f32 b] ((f32 a).add (f32 b))
def subF32 (rm : Rm) (a b : Reg) : Reg × Flags := finish32 rm [f32 a, f32 b] ((f32 a).add (f32 b).neg)
def mulF32 (rm : Rm) (a b : Reg) : Reg × Flags := finish32 rm [f32 a, f32 b] ((f32 a).mul (f32 b))
def fmaF32 (rm : Rm) (a b c : Reg) : Reg × Flags :=
  finish32 rm [f32 a, f32 b, f32 c] (((f32 a).mul (f32 b)).add (f32 c))
def fnmaF32 (rm : Rm) (a b c : Reg) : Reg × Flags :=
  finish32 rm [f32 a, f32 b, f32 c] (((f32 a).mul (f32 b)).neg.add (f32 c))

/-- The order of FP32 numbers with -0 below +0 (R125). -/
def key32 (x : Reg) : Int := if bitAt x 31 then -((x.toNat % 2 ^ 31 : Nat) : Int) - 1 else ((x.toNat % 2 ^ 31 : Nat) : Int)

/-- minimumNumber and maximumNumber (R125). -/
def pickF32 (larger : Bool) (a b : Reg) : Reg :=
  if (f32 a).isNan then (if (f32 b).isNan then nan32 else b)
  else if (f32 b).isNan then a
  else if decide (key32 a < key32 b) == larger then b else a

def minF32 (a b : Reg) : Reg := pickF32 false a b
def maxF32 (a b : Reg) : Reg := pickF32 true a b

/-- |a| and -a; a NaN gives the canonical NaN (R103; log entry 21). -/
def absF32 (a : Reg) : Reg := if (f32 a).isNan then nan32 else a &&& 0x7FFFFFFF
def negF32 (a : Reg) : Reg := if (f32 a).isNan then nan32 else a ^^^ 0x80000000

/-- The order of FP32 numbers with both zeros equal (R126). -/
def num32 (x : Reg) : Int := if bitAt x 31 then -((x.toNat % 2 ^ 31 : Nat) : Int) else ((x.toNat % 2 ^ 31 : Nat) : Int)

/-- The comparisons of vceq to vcge. -/
inductive Cmp where
  | eq | ne | lt | le | gt | ge
  deriving DecidableEq, Repr

/-- A comparison of two integers. -/
def Cmp.holds (c : Cmp) (a b : Int) : Bool :=
  match c with
  | .eq => a == b | .ne => a != b | .lt => a < b | .le => a ≤ b | .gt => b < a | .ge => b ≤ a

/-- A comparison of FP32 words: false when unordered, but for not-equal (R126). -/
def cmpF32 (c : Cmp) (a b : Reg) : Bool :=
  if (f32 a).isNan || (f32 b).isNan then c == .ne else c.holds (num32 a) (num32 b)

/-! ## Types (Table 6.6) -/

/-- The floating-point element format of a type code, the MX flag set aside. -/
def fmtOf (ty : Nat) : Option Fmt :=
  match ty % 16 with
  | 0 => some fp32 | 1 => some bf16 | 2 => some fp16 | 3 => some e4m3 | 4 => some e5m2 | 5 => some e3m2 | 6 => some e2m3
  | 7 => some e2m1 | _ => none

/-- Width of an element of a type code. -/
def tyWidth (ty : Nat) : Nat :=
  match fmtOf ty with
  | some f => f.width
  | none => match ty % 16 with | 8 => 8 | 9 => 16 | 10 => 32 | 11 => 64 | _ => 0

/-- Whether a type code is an MX type (R145). -/
def isMx (ty : Nat) : Bool := 0x13 ≤ ty && ty ≤ 0x17

/-- A number of w bits read as two's complement. -/
def sext (w x : Nat) : Int := let y := x % 2 ^ w; if y < 2 ^ (w - 1) then y else (y : Int) - 2 ^ w

/-- An integer as w bits of two's complement. -/
def wrap (w : Nat) (i : Int) : Nat := (i % (2 ^ w : Int)).toNat

/-- The value of an element: INT8 read as an integer (Table 5.1). -/
def elemValue (ty b : Nat) : FV :=
  match fmtOf ty with
  | some f => f.value b
  | none => intValue (sext 8 b)

/-- Narrowing of an FP32 value to the element of a type code (R120). -/
def narrowTo (ty : Nat) (rm : Rm) (sat : Bool) (v : FV) : Nat × Flags :=
  match fmtOf ty with
  | some f => f.narrow rm sat v
  | none =>
    if ty % 16 = 8 then (let (i, fl) := toInt rm (-128) 127 v; (wrap 8 i, fl))
    else (let (i, fl) := toInt rm (-2147483648) 2147483647 v; (wrap 32 i, fl))

/-! ## Matrix accumulation of one element (R110 to R113) -/

/-- The value of a scale code (Table 5.1): a power of two, or NaN. -/
def scaleExp (x : Nat) : Option Int := if x % 256 = 255 then none else some ((x % 256 : Nat) - 127)

/-- The exact sum of the products of a block (R113); -0 starts it, so that only products that are all -0 leave -0. -/
def dotExact (l : List (FV × FV)) : FV := l.foldl (fun s p => s.add (p.1.mul p.2)) (.fin true 0 0)

/-- One block added to an accumulator (R110): scaled, one rounding, flags NV and OF (R131). -/
def accBlock (t : Reg) (l : List (FV × FV)) (sc : Option (Nat × Nat)) : Reg × Flags :=
  let s0 := dotExact l
  let s :=
    match sc with
    | none => s0
    | some (a, b) =>
      match scaleExp a, scaleExp b with
      | some i, some j => s0.scale (i + j)
      | _, _ => .nan
  let ops := f32 t :: ((if (match sc with | some (a, b) => (scaleExp a).isNone || (scaleExp b).isNone | none => false) then [FV.nan] else []) ++
    l.map (·.1) ++ l.map (·.2))
  let (r, fl) := finish32 .rne ops ((f32 t).add s)
  (r, fl.matrix)

/-- The pairs of a list in blocks of 32, each with its scales (R110). -/
def accBlocks (t : Reg) (blocks : List (List (FV × FV) × Option (Nat × Nat))) : Reg × Flags :=
  blocks.foldl (fun acc b => let (r, fl) := accBlock acc.1 b.1 b.2; (r, acc.2.or fl)) (t, {})

/-- The FP32 chain of fused multiply-adds (R111). -/
def accFma (t : Reg) (l : List (Reg × Reg)) : Reg × Flags :=
  l.foldl (fun acc p => let (r, fl) := fmaF32 .rne p.1 p.2 acc.1; (r, acc.2.or fl.matrix)) (t, {})

/-- The INT8 accumulation (R112). -/
def accInt (t : Reg) (l : List (Nat × Nat)) : Reg :=
  BitVec.ofInt 32 (l.foldl (fun acc p => acc + sext 8 p.1 * sext 8 p.2) (t.toNat : Int))

/-! ## MX quantisation (R122, R123) -/

/-- emax of an element format (R122). -/
def emaxOf (ty : Nat) : Int := match ty % 16 with | 3 => 8 | 4 => 15 | 5 => 4 | _ => 2

/-- The scale exponent e of a block (R122); none when a value is NaN or infinite. -/
def mxExp (ty : Nat) (l : List FV) : Option Int :=
  if l.any (fun v => v.isNan || v.isInf) then none
  else
    let nz := l.filter (fun v => match v with | .fin _ m _ => m != 0 | _ => false)
    match nz with
    | [] => some (-127)
    | v :: vs => some (max (vs.foldl (fun acc w => max acc w.log2) v.log2 - emaxOf ty) (-127))

/-- A dequantised MX element (R177): rounded only below the normal range, infinity and OF on overflow. -/
def mxValue (ty x b : Nat) (rm : Rm) : Reg × Flags :=
  match scaleExp x, elemValue ty b with
  | none, _ => (nan32, {})
  | some _, .nan => (nan32, {})
  | some k, v =>
    let (r, fl) := round32 rm (v.scale k)
    let (c, _) := match v.scale k with | .fin _ m e => fp32.roundMag rm m e | _ => (0, false)
    if 0x7F7FFFFF < c then (BitVec.ofNat 32 (fp32.signed v.sign 0x7F800000), { ovf := true }) else (r, fl)

/-! ## Stochastic generators (R116, R117) -/

/-- The advance of a generator (R116). -/
def genNext (x : Reg) : Reg :=
  let a := x ^^^ (x <<< 13)
  let b := a ^^^ (a >>> 17)
  b ^^^ (b <<< 5)

/-- The draw of an advanced generator. -/
def genDraw (x : Reg) : Nat := x.toNat / 2 ^ 16

/-- The seed of generator g from a scalar (R117). -/
def genSeed (s : Word) (g : Nat) : Reg :=
  let v : Reg := (s.setWidth 32) ^^^ ((s >>> 32).setWidth 32) ^^^ BitVec.ofNat 32 (g * 0x9E3779B9)
  if v = 0 then 1 else v

end Sys2Proof.Machine
end

