-- ==== Sys2Proof/Machine/Rammer.lean ====
section
/-! DEFINITION. The rammer's combination of a line (R319 to R321). -/

namespace Sys2Proof.Machine

open Sys2Proof

/-- Lane i of w bits of a line (R319: little-endian lanes). -/
def laneOf (w : Nat) (d : LineData) (i : Nat) : Nat := d.toNat / 2 ^ (w * i) % 2 ^ w

/-- A line of lanes of w bits. -/
def lineOf (w : Nat) (l : List Nat) : LineData :=
  BitVec.ofNat 512 (l.foldr (fun x acc => x % 2 ^ w + 2 ^ w * acc) 0)

/-- One 32-bit lane of MXACC (R319 to R321): element i of the operand, scaled by the code at byte 56. -/
def mxaccLane (ty i : Nat) (t : Reg) (a : LineData) : Reg × Flags :=
  let w := tyWidth ty
  let e := elemValue ty (a.toNat / 2 ^ (w * i))
  match scaleExp (lineByte a 56).toNat with
  | none => (nan32, {})
  | some k => finish32 .rne [f32 t, e] ((f32 t).add (e.scale k))

/-- Lane i of a 32-bit operation. -/
def ramLane (op i : Nat) (t a : Reg) (line : LineData) : Reg × Flags :=
  match op with
  | 0x0 => addF32 .rne t a
  | 0x1 => (t + a, {})
  | 0x3 => (maxF32 t a, {})
  | 0x4 => (minF32 t a, {})
  | 0x5 => (if t.slt a then a else t, {})
  | 0x6 => (if a.slt t then a else t, {})
  | 0x8 => mxaccLane 3 i t line
  | 0x9 => mxaccLane 4 i t line
  | 0xA => mxaccLane 5 i t line
  | 0xB => mxaccLane 6 i t line
  | 0xC => mxaccLane 7 i t line
  | _ => (t, {})

/-- Whether a rammer operation code is defined (Table 13.1). -/
def ramDefined (op : Nat) : Bool := op < 13 && op != 7

/-- The combined line, and whether some lane became a NaN from operands that were not NaN (R319, R321). -/
def ramCombine (op : Nat) (t a : LineData) : LineData × Bool :=
  if op = 2 then (lineOf 64 ((List.range 8).map (fun i => laneOf 64 t i + laneOf 64 a i)), false)
  else
    let ls := (List.range 16).map (fun i => ramLane op i (BitVec.ofNat 32 (laneOf 32 t i)) (BitVec.ofNat 32 (laneOf 32 a i)) a)
    (lineOf 32 (ls.map (fun l => l.1.toNat)), ls.any (fun l => l.2.nv))

end Sys2Proof.Machine
end

