-- ==== Sys2Proof/Machine/Build.lean ====
section
/-! DEFINITION. The qualified builds (R21, Table 1.6), the floorplan (R14, Table 1.3) and the unit numbers that follow from it. -/

namespace Sys2Proof.Machine

open Sys2Proof

/-- A qualified build, named by its active crucibles (Table 1.6). -/
inductive Build where
  | b1 | b2 | b4 | b8 | b16 | b32 | b48 | b64
  deriving DecidableEq, Repr

/-- Active crucibles of a build. -/
def buildActive : Build → Nat
  | .b1 => 1 | .b2 => 2 | .b4 => 4 | .b8 => 8 | .b16 => 16 | .b32 => 32 | .b48 => 48 | .b64 => 64

/-- Risers of a build. -/
def buildRisers : Build → Nat
  | .b16 => 1 | .b32 => 3 | .b48 => 5 | .b64 => 8 | _ => 0

/-- E-dies of a build: E0 and up. -/
def buildEdies : Build → Nat
  | .b32 => 2 | .b48 => 3 | .b64 => 4 | _ => 1

/-- Keystones of a build, in rising order (Table 1.6). -/
def buildKeys : Build → List Nat
  | .b1 => [0] | .b2 => [0] | .b4 => [0, 1] | .b8 => [0, 1, 2]
  | .b16 => [0, 1, 2, 21, 22, 23]
  | .b32 => [0, 1, 2, 3, 4, 5, 6, 7, 8, 21, 22, 23]
  | .b48 => [0, 1, 2, 3, 4, 5, 6, 7, 8, 9, 10, 11, 18, 19, 20, 21, 22, 23]
  | .b64 => List.range 24

/-- The crucibles listed after the interior block (Table 1.6, R22). -/
def buildOuter : Build → List Nat
  | .b16 => [64] | .b32 => [64, 65, 71] | .b48 => [64, 65, 66, 67, 71]
  | .b64 => [64, 65, 66, 67, 68, 69, 70, 71] | _ => []

/-- Crucibles of a build, in rising order. -/
def buildCrus (b : Build) : List Nat := List.range (buildActive b) ++ buildOuter b

/-- Whether crucible `n` stands in the build. -/
def hasCru (b : Build) (n : Nat) : Bool := (buildCrus b).contains n

/-- Whether keystone `k` stands in the build. -/
def hasKs (b : Build) (k : Nat) : Bool := (buildKeys b).contains k

/-- Whether E-die `e` stands in the build. -/
def hasE (b : Build) (e : Nat) : Bool := e < buildEdies b

/-- Whether gate `g` stands in the build (R16). -/
def hasGt (b : Build) (g : Nat) : Bool := hasE b (g / 2)

/-- Whether ladle `l` stands in the build (R16). -/
def hasLd (b : Build) (l : Nat) : Bool := hasE b (l / 16)

/-- Site 10y + x of crucible `n` (Table 1.3). -/
def siteCru (n : Nat) : Nat :=
  if n < 64 then 10 * (n / 8 + 1) + (n % 8 + 1) else [4, 5, 49, 59, 95, 94, 50, 40].getD (n - 64) 0

/-- Site of keystone `k` (Table 1.3). -/
def siteKs (k : Nat) : Nat :=
  [1, 2, 3, 6, 7, 8, 19, 29, 39, 69, 79, 89, 98, 97, 96, 93, 92, 91, 80, 70, 60, 30, 20, 10].getD k 0

/-- Site of E-die `e` (Table 1.3). -/
def siteE (e : Nat) : Nat := [0, 9, 99, 90].getD e 0

/-- Occupied sites of a build. -/
def buildSites (b : Build) : List Nat :=
  (List.range (buildEdies b)).map siteE ++ (buildKeys b).map siteKs ++ (buildCrus b).map siteCru

/-- Whether a site is occupied. -/
def hasSite (b : Build) (x : Nat) : Bool := (buildSites b).contains x

/-- What stands at a site of the full floorplan. -/
inductive SiteUnit where
  | cru (n : Nat) | ks (k : Nat) | edie (e : Nat) | none
  deriving DecidableEq, Repr

/-- The unit of a site (Table 1.3). -/
def siteUnit (x : Nat) : SiteUnit :=
  match (List.range 72).find? (fun n => siteCru n == x) with
  | some n => .cru n
  | none =>
    match (List.range 24).find? (fun k => siteKs k == x) with
    | some k => .ks k
    | none =>
      match (List.range 4).find? (fun e => siteE e == x) with
      | some e => .edie e
      | none => .none

/-! The UNIT encoding of Table 22.4 -/

def unitCru (n : Nat) : Nat := n
def unitLadle (l : Nat) : Nat := 0x080 + l
def unitCore (e c : Nat) : Nat := 0x0C0 + 4 * e + c
def unitHd (h : Nat) : Nat := 0x100 + h
def unitKs (k : Nat) : Nat := 0x200 + k
def unitGate (g : Nat) : Nat := 0x220 + g
def unitLink (x p : Nat) : Nat := 0x240 + 4 * x + p
def unitQuoin (e : Nat) : Nat := 0x3E0 + e
def unitSet : Nat := 0x3FF

end Sys2Proof.Machine
end

