-- ==== Sys2Proof/Machine/Regs.lean ====
section
/-! DEFINITION. The register map: block windows (Table 26.1), the writable fields of every register (RW and RWC masks of the register
tables of all chapters, indexed in Tables 26.6 to 26.14), the reset values (R573), and the fault sources of Table 22.3. -/

namespace Sys2Proof.Machine

open Sys2Proof

/-! Block windows (Table 26.1) -/

def aCr (n o : Nat) : Nat := 0x01000000 + n * 0x100000 + o
def aKs (k o : Nat) : Nat := 0x06000000 + k * 0x100000 + o
def aGt (g o : Nat) : Nat := 0x08000000 + g * 0x100000 + o
def aLd (o : Nat) : Nat := 0x08800000 + o
def aSp (o : Nat) : Nat := 0x09000000 + o
def aRtr (x o : Nat) : Nat := 0x09100000 + x * 0x10000 + o
def aCo (o : Nat) : Nat := 0x0A000000 + o
def aFt (o : Nat) : Nat := 0x0B000000 + o
def aMl (o : Nat) : Nat := 0x0C000000 + o

/-- Quoin `e`'s copy of a register of Table 21.8 (R497); quoin 0's copy stands at the block address itself. -/
def aQnOf (e o : Nat) : Nat := e * 0x100000000 + o

/-- The host mailbox page of domain `h` (R491). -/
def aHmb (h o : Nat) : Nat := 0x400000 + h * 0x4000 + o

/-- The queue page of queue `q` of LD `l` on gate `g` (Table 18.8). -/
def aQ (g l q o : Nat) : Nat := aGt g (0x40000 + 0x4000 * l + 0x40 * q + o)

/-- The notice-ring registers of LD `l` on gate `g` (Table 18.8). -/
def aNq (g l o : Nat) : Nat := aGt g (0x40000 + 0x4000 * l + o)

/-- A block window: which block and which unit of it. -/
inductive Win where
  | qn | cr (n : Nat) | ks (k : Nat) | gt (g : Nat) | ld | sp | co | ft | ml
  deriving DecidableEq, Repr

/-- The window of a block address and the offset in it (Table 26.1); none for reserved addresses. -/
def winOf (a : Nat) : Option (Win × Nat) :=
  if a < 0x01000000 then some (.qn, a)
  else if a < 0x05800000 then some (.cr ((a - 0x01000000) / 0x100000), a % 0x100000)
  else if a < 0x06000000 then none
  else if a < 0x07800000 then some (.ks ((a - 0x06000000) / 0x100000), a % 0x100000)
  else if a < 0x08000000 then none
  else if a < 0x08800000 then some (.gt ((a - 0x08000000) / 0x100000), a % 0x100000)
  else if a < 0x09000000 then some (.ld, a - 0x08800000)
  else if a < 0x0A000000 then some (.sp, a - 0x09000000)
  else if a < 0x0B000000 then some (.co, a - 0x0A000000)
  else if a < 0x0C000000 then some (.ft, a - 0x0B000000)
  else if a < 0x0D000000 then some (.ml, a - 0x0C000000)
  else none

/-- The base address of a window. -/
def winBase : Win → Nat
  | .qn => 0 | .cr n => aCr n 0 | .ks k => aKs k 0 | .gt g => aGt g 0 | .ld => aLd 0 | .sp => aSp 0 | .co => aCo 0
  | .ft => aFt 0 | .ml => aMl 0

/-- Whether a window belongs to a site the build occupies (R31). -/
def winBuilt (b : Build) : Win → Bool
  | .cr n => hasCru b n | .ks k => hasKs b k | .gt g => hasGt b g | _ => true

/-! Fault sources (Table 22.3) -/

/-- What Table 22.3 gives a source: class code, default reaction bits of Table 22.2 (INT 1, NMT 2, BLK 4, CHIP 8, PIN 16), and
whether it is stallable. -/
structure SrcInfo where
  cls : Nat
  react : Nat
  stall : Bool
  deriving DecidableEq, Repr

/-- Table 22.3, sources 0 to 44. -/
def srcTable : List SrcInfo :=
  [⟨0, 0, false⟩, ⟨2, 17, false⟩, ⟨2, 17, false⟩, ⟨1, 1, false⟩, ⟨1, 1, false⟩, ⟨1, 1, false⟩, ⟨1, 1, false⟩, ⟨1, 1, false⟩,
   ⟨2, 17, false⟩, ⟨0, 0, false⟩, ⟨2, 17, false⟩, ⟨0, 1, false⟩, ⟨0, 1, false⟩, ⟨2, 17, false⟩, ⟨2, 17, false⟩, ⟨2, 17, false⟩,
   ⟨2, 17, false⟩, ⟨0, 0, false⟩, ⟨2, 17, false⟩, ⟨2, 17, false⟩, ⟨2, 17, false⟩, ⟨0, 0, false⟩, ⟨1, 1, false⟩, ⟨1, 1, false⟩,
   ⟨2, 17, false⟩, ⟨1, 1, false⟩, ⟨2, 17, false⟩, ⟨2, 17, false⟩, ⟨0, 1, true⟩, ⟨0, 1, true⟩, ⟨0, 1, true⟩, ⟨2, 17, true⟩,
   ⟨1, 5, false⟩, ⟨0, 1, true⟩, ⟨0, 1, true⟩, ⟨1, 1, false⟩, ⟨0, 1, false⟩, ⟨0, 1, false⟩, ⟨0, 1, false⟩, ⟨3, 8, false⟩,
   ⟨3, 3, false⟩, ⟨3, 3, false⟩, ⟨3, 1, false⟩, ⟨3, 2, false⟩, ⟨1, 1, false⟩]

/-- A source of Table 22.3; the reserved numbers 45 to 63 have no reaction. -/
def srcInfo (n : Nat) : SrcInfo := srcTable.getD n ⟨0, 0, false⟩

/-- Whether a number is a source of Table 22.3 (R501). -/
def srcAssigned (n : Nat) : Bool := n < 45

/-- Whether the BLK bit of a source is writable: its unit is a crucible or a ladle (Table 22.2). -/
def srcBlk (n : Nat) : Bool := n < 8 || n == 30 || n == 31 || n == 32 || n == 33 || n == 34

/-- The writable bits of FT_REACTn (R501, Table 22.2, Table 22.3). -/
def reactMask (n : Nat) : Reg :=
  if srcAssigned n then
    (if srcBlk n then 0x1F else 0x1B) &&& (if n = 39 then 0x17 else 0x1F)
  else 0

/-! Writable fields -/

/-- The RW and RWC bits of a register word. -/
structure RegKind where
  rw : Reg
  rwc : Reg
  deriving DecidableEq, Repr

/-- A list lookup for the tables below: entries of offset, RW bits, RWC bits. -/
def kindIn (t : List (Nat × Reg × Reg)) (o : Nat) : RegKind :=
  match t.find? (fun e => e.1 == o) with
  | some e => ⟨e.2.1, e.2.2⟩
  | none => ⟨0, 0⟩

/-- Quoin block (Tables 9.9, 10.6, 11.9, 12.5, 15.6, 21.5, 21.8). -/
def kindQn (o : Nat) : RegKind :=
  if 0x400000 ≤ o ∧ o < 0x600000 then
    let p := (o - 0x400000) % 0x4000
    if p = 0 then ⟨0xFFFF, 0⟩ else if 0x100 ≤ p ∧ p < 0x200 then ⟨0xFFFFFFFF, 0⟩ else ⟨0, 0⟩
  else if 0x20100 ≤ o ∧ o < 0x20180 then
    (if o % 16 < 8 then ⟨0xFFFFFFFF, 0⟩ else if o % 16 < 12 then ⟨0xFF, 0⟩ else ⟨0, 0⟩)
  else kindIn
    [(0xFF4, 0xFFFFFFFF, 0), (0x20000, 1, 2), (0x20008, 0xFF000000, 0), (0x2000C, 0x1FF, 0), (0x20010, 0xFFF80000, 0),
     (0x20014, 0x1FF, 0), (0x24008, 0, 0x7F), (0x2400C, 0x30000, 0), (0x28000, 0, 0xFFFF), (0x28004, 0xFFFF00FF, 0),
     (0x2C000, 0, 0x3FF), (0x30008, 0xF00, 0), (0x30010, 0xFFFFFFF8, 0), (0x30014, 0x1FF, 0)] o

/-- Crucible block (Tables 4.6 to 4.9, 14.8). -/
def kindCr (o : Nat) : RegKind :=
  kindIn
    [(0xFF4, 0xFFFFFFFF, 0), (0x8, 0x300, 0), (0xC, 0, 0x1F), (0x10, 0xFFFFFFC0, 0), (0x14, 0x1FF, 0), (0x18, 0xFFFFFFFF, 0),
     (0x1C, 0xFFFFFFFF, 0), (0x20, 0xFFFF, 0), (0x4000, 0, 1), (0x4008, 0xFFFFFFC0, 0), (0x400C, 0x1FF, 0),
     (0x4010, 0xFFFFFFC0, 0), (0x4014, 0x1FF, 0)] o

/-- Keystone block and memory port (Tables 14.9, 24.4). -/
def kindKs (o : Nat) : RegKind :=
  if 0xC100 ≤ o ∧ o < 0xC140 then (if o % 8 = 0 then ⟨0xFFFFFFC0, 0⟩ else ⟨0xF, 0⟩)
  else if 0xC610 ≤ o ∧ o < 0xC620 then ⟨0xFFFFFFFF, 0⟩
  else if 0xC640 ≤ o ∧ o < 0xC680 then ⟨0xFFFFFFFF, 0⟩
  else kindIn
    [(0xFF4, 0xFFFFFFFF, 0), (0x8000, 0x3F00, 0x31), (0xC000, 0xFFFF01F1, 0), (0xC500, 0xFFFFFFC0, 0), (0xC504, 0xF, 0),
     (0xC508, 0xFFFFFFC0, 0), (0xC50C, 0xF, 0), (0xC510, 0x1000000, 0x1FFFFF), (0xC518, 0xFFFF, 0), (0xC608, 0xFFFFFFC0, 0),
     (0xC60C, 0xF, 0)] o

/-- Gate block (Tables 18.8, 19.7, 20.1). -/
def kindGt (o : Nat) : RegKind :=
  if 0x40000 ≤ o ∧ o < 0x80000 then
    let p := o % 0x4000
    if p < 0x400 then
      kindIn [(0x0, 0xFFFFF000, 0), (0x4, 0x1FF, 0), (0x8, 0xFFFFF000, 0), (0xC, 0x1FF, 0), (0x10, 0xFF0F0F0F, 0)] (p % 0x40)
    else kindIn [(0x400, 0xFFFFF000, 0), (0x404, 0x1FF, 0), (0x408, 0xFF00010F, 0)] p
  else kindIn [(0xFF4, 0xFFFFFFFF, 0), (0x4004, 1, 0), (0x4008, 0xE3FF, 0), (0x8004, 0x3F, 0), (0x8008, 0xF, 0)] o

/-- Ladle block (Table 17.6). -/
def kindLd (o : Nat) : RegKind :=
  if 0x4000 ≤ o ∧ o < 0x4100 then ⟨0, 0xFFFF0F0F⟩ else kindIn [(0xFF4, 0xFFFFFFFF, 0), (0, 0xFF, 0)] o

/-- Sprue block (Tables 16.6, 16.7). -/
def kindSp (o : Nat) : RegKind :=
  if 0x100000 ≤ o ∧ o < 0x740000 then
    (if 0x4000 ≤ o % 0x10000 ∧ o % 0x10000 < 0x4190 then ⟨0x77, 0⟩ else ⟨0, 0⟩)
  else kindIn [(0xFF4, 0xFFFFFFFF, 0), (0, 0x7FFFF, 0)] o

/-- Course and timebase block (Tables 3.5 to 3.15). -/
def kindCo (o : Nat) : RegKind :=
  kindIn [(0xFF4, 0xFFFFFFFF, 0), (0, 7, 0), (4, 0, 0xFFF), (0x28, 0xFFFFFF, 0), (0x30, 0xFFFFF, 0)] o

/-- Fault block (Tables 22.8, 22.9). -/
def kindFt (o : Nat) : RegKind :=
  if 0x4000 ≤ o ∧ o < 0x4100 then ⟨reactMask ((o - 0x4000) / 4), 0⟩
  else kindIn [(0xFF4, 0xFFFFFFFF, 0), (8, 1, 0), (0x28, 0x3FF, 0), (0x38, 0xFFFFFFFF, 0), (0x3C, 0xFFFFFFFF, 0)] o

/-- Mark-log block (Table 23.3). -/
def kindMl (o : Nat) : RegKind :=
  kindIn [(0xFF4, 0xFFFFFFFF, 0), (0, 0xFF00, 0), (0x20, 0xFFFFFFFF, 0), (0x24, 0xFFFFFFFF, 0), (0x28, 0xFFFFFFFF, 0),
    (0x2C, 0xFFFFFFFF, 0)] o

/-- The RW and RWC bits of the word at an offset of a window. -/
def regKind : Win → Nat → RegKind
  | .qn, o => kindQn o | .cr _, o => kindCr o | .ks _, o => kindKs o | .gt _, o => kindGt o | .ld, o => kindLd o
  | .sp, o => kindSp o | .co, o => kindCo o | .ft, o => kindFt o | .ml, o => kindMl o

/-! Wide values (R32 to R36) -/

/-- The 64-bit registers of a window: the low-word offsets (the tables that mark a register 64-bit). -/
def wide64 : Win → Nat → Bool
  | .qn, o => [0x10, 0x20008, 0x20010, 0x20018, 0x20020, 0x20028, 0x20030, 0x20038, 0x24010, 0x2C008, 0x30010].contains o
  | .cr _, o => [0x10, 0x18, 0x28, 0x30, 0x38, 0x40, 0x4008, 0x4010, 0x4020, 0x4028, 0x4030].contains o
  | .ks _, o =>
    [0x4010, 0x4018, 0x4020, 0x4028, 0x4030, 0x4038, 0x4050, 0x8010, 0x8018, 0x8020, 0xC010, 0xC018, 0xC020, 0xC500, 0xC508,
     0xC520, 0xC528, 0xC530, 0xC608].contains o || (0xC100 ≤ o && o < 0xC140 && o % 8 == 0) ||
     (0xC400 ≤ o && o < 0xC480 && o % 8 == 0)
  | .gt _, o =>
    0x40000 ≤ o && o < 0x80000 &&
      (if o % 0x4000 < 0x400 then [0, 8, 0x20, 0x28, 0x30, 0x38].contains (o % 0x40)
       else [0x400, 0x410, 0x418].contains (o % 0x4000))
  | .ld, o => 0x8000 ≤ o && o < 0x8200 && o % 8 == 0
  | .sp, _ => false
  | .co, o => [0x10, 0x18, 0x20].contains o
  | .ft, o => [0x10, 0x18, 0x20, 0x30, 0x38].contains o || (0x8000 ≤ o && o < 0x9000 && o % 8 == 0)
  | .ml, o => [0x10, 0x18, 0x20, 0x28, 0x30].contains o

/-- The 128-bit registers: QN_CSETi, QN_IRQ_CR and MP_TEST_CHECK (R36), by the offset of the lowest word. -/
def wide128 : Win → Nat → Bool
  | .qn, o => (0x20100 ≤ o && o < 0x20180 && o % 16 == 0) || o == 0x34000
  | .ks _, o => o == 0xC610
  | _, _ => false

/-- The wide value a word belongs to: the offset of its lowest word and how many words it has (1 for a plain register). -/
def wideOf (w : Win) (o : Nat) : Nat × Nat :=
  if wide128 w (o / 16 * 16) then (o / 16 * 16, 4)
  else if wide64 w (o / 8 * 8) then (o / 8 * 8, 2)
  else (o, 1)

/-! Reset values (R573) -/

/-- NEAR groups of a build (Table 10.1; R15, R243). -/
def buildGroups (b : Build) : Nat := if (buildKeys b).length < 3 then 1 else (buildKeys b).length / 3

/-- Carvable blocks of a build (Table 10.1): 252 for each keystone. -/
def buildBlocks (b : Build) : Nat := 252 * (buildKeys b).length

/-- QN_BUILD (Table 26.5). -/
def buildWord (b : Build) : Reg :=
  BitVec.ofNat 32 (buildEdies b <<< 24 ||| (buildKeys b).length <<< 16 ||| (buildCrus b).length <<< 8 ||| buildActive b)

/-- QN_KEYS_PRESENT of a build (Table 10.6). -/
def keysWord (b : Build) : Reg := BitVec.ofNat 32 ((buildKeys b).foldl (fun acc k => acc + 2 ^ k) 0)

/-- The site fields of CR_ID and SP_RTR_ID: SITE_X and SITE_Y (Tables 4.6, 16.7). -/
def siteXY (x : Nat) : Nat × Nat := (x % 10, x / 10)

/-- Reset values of the quoin block. -/
def resetQn (b : Build) (o : Nat) : Reg :=
  let e := o / 0x100000000
  let p := o % 0x100000000
  if p = 0 then 0x4A031D7B else if p = 4 then 0x00030001 else if p = 8 then buildWord b
  else if p = 0x10 then (Config.serial 0).setWidth 32 else if p = 0x14 then ((Config.serial 0) >>> 32).setWidth 32
  else if p = 0x24000 then BitVec.ofNat 32 ((buildKeys b).length <<< 24 ||| buildGroups b <<< 20 ||| buildBlocks b)
  else if p = 0x24004 then keysWord b
  else if p = 0x28004 then 0x01F4000A else if p = 0x2C000 then 0x10
  else if p = 0x30000 then BitVec.ofNat 32 (0xF00 + 16 * e)
  else if p = 0x30008 then 0x200 else if p = 0x3000C then 1
  else if p = 0x30018 then Config.svnFuses.setWidth 32 else 0

/-- Reset value of a word. -/
def resetWord (b : Build) (a : Nat) : Reg :=
  if 0x100000000 ≤ a then resetQn b a
  else match winOf a with
  | none => 0
  | some (.qn, o) => resetQn b o
  | some (.cr n, o) =>
    let (x, y) := siteXY (siteCru n)
    if o = 0 then BitVec.ofNat 32 (y <<< 20 ||| x <<< 16 ||| n) else if o = 0xC then 0x1F else if o = 0x4000 then 1
    else if o = 0x4004 then 3 else if o = 0x403C then 0xACE1 else 0
  | some (.ks k, o) =>
    if o = 0x8000 then 0x3011 else if o = 0xC000 then 0x000A0000 else if o = 0xC008 then Config.stackGeom k &&& 0xFFFF0000
    else if 0xC100 ≤ o ∧ o < 0xC140 ∧ o % 8 = 4 then ((Config.stackPos k ((o - 0xC100) / 8)).setWidth 32) <<< 24
    else 0
  | some (.gt _, o) => if o = 0x4004 then 1 else if o = 0x4008 then 0x4014 else 0
  | some (.ld, o) =>
    if 0x4100 ≤ o ∧ o < 0x4200 ∧ ((o - 0x4100) / 4) / 4 % 2 = 1 then 0x80000000 else 0
  | some (.sp, o) =>
    if o = 0 then 0x31010
    else if 0x100000 ≤ o ∧ o < 0x740000 ∧ o % 0x10000 = 0 then
      let x := (o - 0x100000) / 0x10000
      let t := match siteUnit x with | .cru _ => 0 | .ks _ => 1 | .edie _ => 2 | .none => 0
      BitVec.ofNat 32 (t <<< 8 ||| (x / 10) <<< 4 ||| x % 10)
    else 0
  | some (.co, o) =>
    if o = 4 then 7 else if o = 0xC then 0x70000 else if o = 0x28 then 0x1E848 else if o = 0x30 then 0x3E8
    else if o = 0x34 then 7 else 0
  | some (.ft, o) => if 0x4000 ≤ o ∧ o < 0x4100 then BitVec.ofNat 32 (srcInfo ((o - 0x4000) / 4)).react else 0
  | some (.ml, o) => if o = 0 then 0x1000 else 0

end Sys2Proof.Machine
end

