-- ==== Sys2Proof/Machine/State.lean ====
section
/-! DEFINITION. The state of the Jozon block, as plain data, and its value after reset. Registers that hold only what is written to
them or counted in them stand in `regs` under their block addresses (Machine/Regs.lean gives each its reset value); state that the
set acts on by its own rules stands in the records below, and its registers are read from there. -/

namespace Sys2Proof.Machine

open Sys2Proof

/-- Reasons a step can stop. No meaning of this model raises one: every command of the table has an effect (log entry 5). -/
inductive Fault where
  /-- Raised by no meaning; it stands only because the outcome has this case. Safe. -/
  | none
  deriving DecidableEq, Repr

/-- Refusals. -/
inductive Refusal where
  /-- An arm of `exec` whose command has no meaning yet. Safe. -/
  | notModelled (mnemonic : String)
  deriving DecidableEq, Repr

/-! ## Courses and time (chapter 03) -/

/-- A correction of calendar time in progress (R57, Table 3.2). -/
inductive Correction where
  | none
  /-- Slew: edges left, what each carries, and what the last one carries besides. -/
  | slew (left : Nat) (each rest : Int)
  /-- Half rate: nanoseconds still to be removed; 0 when the error is gone and the end is not yet recorded. -/
  | halfRate (left : Nat)
  deriving DecidableEq, Repr

/-- The course and timebase logic of the active quoin. Dormant quoins' copies run in step (R494) and so need no copy here. -/
structure Timebase where
  starting : Bool := false
  running : Bool := false
  frameLock : Bool := false
  holdover : Bool := false
  relocking : Bool := false
  timeValid : Bool := false
  todMissing : Bool := false
  aligned : Bool := false
  /-- Oscillator time of the latest timed event, ns since PORST_N (R524). -/
  now : Nat := 0
  /-- Oscillator time of the last frame edge, real or generated (R49, R61). -/
  lastEdge : Option Nat := none
  /-- The next FRAME_IN edge is taken whatever its time (R61). -/
  lost : Bool := true
  /-- Oscillator time of the last real FRAME_IN edge seen in holdover (R64). -/
  lastReal : Option Nat := none
  /-- Consecutive clean edges toward FRAME_LOCK (R58). -/
  clean : Nat := 0
  /-- Consecutive clean real edges toward a re-lock (R64). -/
  relockClean : Nat := 0
  armed : Bool := false
  /-- The generated boundary edge has passed while a re-lock is armed (R64): its calendar time. -/
  genPassed : Option Nat := none
  /-- Calendar time of the last frame edge. -/
  edgeTime : Nat := 0
  corr : Correction := .none
  /-- Forward step for step 2 of the next boundary (Table 3.2). -/
  fwdStep : Option Nat := none
  /-- Error of the previous valid message (Table 3.2). -/
  prevErr : Option Int := none
  /-- Valid messages that tag the next frame edge: their times (R53). -/
  tagged : List (Nat × Nat) := []
  /-- Oscillator time of the last valid message (R55). -/
  lastTod : Nat := 0
  frame : Nat := 0
  curN : Nat := 7
  nextN : Nat := 7
  course : Nat := 0
  boundaryTime : Nat := 0
  todError : Reg := 0
  glitch : Nat := 0
  todErr : Nat := 0
  holdCourses : Nat := 0
  /-- Frames elapsed toward the first boundary of a free start count from the write of ENABLE (R60). -/
  freeRun : Bool := false
  /-- A boundary edge has come and its boundary step (Table 3.3) has not been taken. -/
  due : Bool := false
  /-- The calendar time of that edge. -/
  dueTime : Nat := 0
  /-- The boundary that is due is the first of the timebase (R58), and its course number. -/
  firstDue : Option Nat := none
  /-- The course just ended had no course event before it (R495). -/
  unjudged : Bool := true
  deriving DecidableEq, Repr

/-! ## Faults and mark log (chapters 22, 23) -/

/-- An event held by a full queue (R507): its queue entry's two words, its source, and its context: the queue, ladle or pour that
raised it (Table 22.5). -/
structure HeldEv where
  src : Nat
  ctx : Nat
  w0 : Word
  w1 : Word
  deriving DecidableEq, Repr

/-- The fault collector beside its registers. -/
structure Collector where
  held : List HeldEv := []
  /-- A FAULT_N pulse is in progress (R508). -/
  pulse : Bool := false
  aliveStopped : Bool := false
  /-- The quoin that was active when ALIVE stopped (R509). -/
  aliveBy : Nat := 0
  alive : Bool := true
  chill : Bool := false
  warn : Bool := false
  therm : Bool := false
  /-- A chill cause was present at some time of this course (R511). -/
  dirtyCourse : Bool := false
  cleanLeft : Nat := 0
  /-- Die sites above the THERM_HIGH or the THERM_TRIP limit and not yet below 100 degrees (R512). -/
  hot : List Nat := []
  /-- BLK reactions still to be carried out (Table 22.2, R68). -/
  blkCru : List Nat := []
  blkLd : List Nat := []
  /-- A CHIP reaction whose chip reset has not begun, by source (Table 22.2). -/
  chip : Option Nat := none
  /-- Crucible failures reported to the pour engine and not yet acted on (R232). -/
  failReports : List Nat := []
  /-- HEARTBEAT_LOST was detected while no dormant quoin was warm: a chip reset comes at the next boundary (R520). -/
  hbLost : Bool := false
  /-- It was detected at step 4 of the boundary that is due, whose boundary step has not been taken. -/
  hbLate : Bool := false
  deriving DecidableEq, Repr

/-- A mark-log record (Table 23.1). -/
structure MarkRec where
  time : Nat
  code : Nat
  cls : Nat
  untimed : Bool
  holdover : Bool
  forced : Bool
  unit : Nat
  rep : Nat
  p0 : Nat
  p1 : Nat
  p2 : Nat
  p3 : Nat
  deriving DecidableEq, Repr

/-- The mark log (chapter 23). A dormant quoin's copy always equals it (R527). -/
structure MarkLog where
  /-- Ring slot to record. -/
  ring : Tbl MarkRec := []
  written : Nat := 0
  base : Nat := 0
  missed : Nat := 0
  frozen : Bool := false
  frozenCourses : Nat := 0
  lastTime : Nat := 0
  heldClear : Bool := false
  /-- The last record takes no merge (R528). -/
  closed : Bool := false
  deriving DecidableEq, Repr

/-! ## MKI units (chapters 04, 06, 08) -/

/-- The scalar state of a unit that runs MKI: Table 6.1, and the CSRs of Table 6.4. -/
structure Mki where
  s : Tbl Word := []
  p : Tbl Word := []
  pc : Nat := 0
  astat : BitVec 6 := 0
  incomplete : Bool := false
  flask : Nat := 0
  ie : Bool := false
  inTrap : Bool := false
  ecause : Nat := 0
  epc : Nat := 0
  eaddr : Nat := 0
  evec : Nat := 0
  ien : Reg := 0
  scratch : Tbl Word := []
  /-- A store declared dead since the last barrier retired (R367). -/
  deadStore : Bool := false
  deriving DecidableEq, Repr

/-- An instruction placed in an issue queue: its address, its operands as read at dispatch (R136), its guard by lane, and how far a
transfer has come. -/
structure QItem where
  ins : Instr
  pc : Nat
  sv : List Word
  g : Word
  /-- The s and p registers it has yet to write (R136). -/
  ws : List Nat := []
  wp : List Nat := []
  prog : Nat := 0
  /-- The head's request for its current line has been sent (R333). -/
  sent : Bool := false
  /-- Its place in program order among the entries dispatched since START (R361). -/
  seq : Nat := 0
  deriving DecidableEq, Repr

/-- An entry of an issue queue (R75, R208, R209). -/
inductive QEntry where
  | op (i : QItem)
  | sig (sc n : Nat) (pc : Nat) (seq : Nat)
  | wait (sc n : Nat)
  deriving DecidableEq, Repr

/-- What dispatch waits for (R209, R212, R193, R189). -/
inductive SeqWait where
  | none
  | mortar
  | ending (code : Nat)
  | scwait (sc n : Nat)
  deriving DecidableEq, Repr

/-- A trap recorded or still to be recorded: the queue code, the trap code, the PC and the address (Tables 4.7, 4.8). -/
structure TrapInfo where
  queue : Nat
  code : Nat
  pc : Nat
  addr : Nat
  deriving DecidableEq, Repr

/-- The states of Table 4.4. -/
inductive CruSt where
  | off | selftest | standby | idle | running | stopping | halted | trapped | resetting | failed | retiring | retired
  deriving DecidableEq, Repr

/-- The commands of Table 4.5. -/
inductive CruCmd where
  | start | stop | resume | abort | reset | standby | wake | retire
  deriving DecidableEq, Repr

/-- What a STOPPING, RESETTING or RETIRING leads to (R90, R91, R95, R99); `invalidate` and `invalidateFailed` are step 4 of a block
reset, entered from the end of step 3. -/
inductive StopBy where
  | none | stop | abort | reset | resetFailed | invalidate | invalidateFailed | retire | drain
  deriving DecidableEq, Repr

/-- The line states of Table 11.2 that a copy can have. -/
inductive CSt where
  | d | x | s | l
  deriving DecidableEq, Repr

/-- A line of a crucible cache (R269, R329, R336): poison marks by 8-byte word. -/
structure CLine where
  st : CSt
  data : LineData
  poison : BitVec 8
  way : Nat
  deriving DecidableEq, Repr

/-- A miss entry (R333): the request sent, its tag, whether its data is left out of the cache, whether the fetch port and whether an
access of XQ waits for it, and the data once it has come, until it can be installed. -/
structure Miss where
  req : MsgKind
  tag : Nat
  noInst : Bool
  fetch : Bool
  rd : Bool := true
  got : Option (AckState × LineData × Bool) := none
  /-- The access was declared dead (R366). -/
  err : Bool := false
  deriving DecidableEq, Repr

/-- A line in the write-back buffer (R301): what it counts as; `keep` after a WbK. -/
structure WbEnt where
  st : CSt
  keep : Bool
  data : LineData
  poison : Bool
  byRange : Bool
  deriving DecidableEq, Repr

/-- CR_CACHE_STATUS.STATE and KS_HEARTH_STATUS.STATE (Tables 14.8, 14.9). -/
inductive CacheSt where
  | enabled | draining | bypass | invalidating
  deriving DecidableEq, Repr

/-- Why the range engine runs (R228, R340, R345, R95, R99, R90, R552). -/
inductive RangeFor where
  | command | drain | standby | reset | retire | charge | chip
  deriving DecidableEq, Repr

/-- A line that the range engine has met (R343, R344): with the tag of its open miss entry, or in the write-back buffer. -/
structure RangeItem where
  line : Nat
  miss : Option Nat := none
  wb : Bool := false
  deriving DecidableEq, Repr

/-- The range engine in a command (R340, R341): whether it flushes, its walk (by line address from `lo` to `hi`, or by set and way),
and where the walk stands; `walked` when it has passed its end; `by_` is the AID of the control core that commanded it. -/
structure RangeEng where
  flush : Bool
  bySet : Bool
  lo : Nat
  hi : Nat
  cursor : Nat
  walked : Bool
  why : RangeFor
  by_ : Option Nat := none
  /-- The lines met at the position reached and not yet acted on. -/
  todo : List RangeItem := []
  deriving DecidableEq, Repr

/-- A crucible. -/
structure Cru where
  st : CruSt := .off
  stopBy : StopBy := .none
  /-- Commands accepted and held (R90, R92). -/
  held : List CruCmd := []
  /-- Sets whose tags cannot be read (R338). -/
  tagBad : List Nat := []
  /-- Write-back and invalidation of a STANDBY command still in progress (R90). -/
  standbyBusy : Bool := false
  /-- ACLK runs (stopped in STANDBY, OFF). -/
  aclkOn : Bool := false
  trap : Option TrapInfo := none
  mki : Mki := {}
  v : Tbl VReg := []
  /-- Accumulator tiles: key 256 mu + 64 t + row. -/
  t : Tbl VReg := []
  sc : Tbl Nat := []
  gens : Tbl Reg := []
  mq0 : List QEntry := []
  mq1 : List QEntry := []
  vq : List QEntry := []
  xq : List QEntry := []
  /-- Entries dispatched to the queues since START. -/
  nseq : Nat := 0
  /-- The weight buffer of each MU: the bytes of the B tile of its current multiply-accumulate (Table 4.1, R79). -/
  wbuf : Tbl (List Byte) := []
  /-- The instruction cache: 512 lines, each with its poison marks by word (Table 4.1, R73). -/
  ic : Tbl (LineData × BitVec 8) := []
  seqw : SeqWait := .none
  /-- Snoops accepted that wait for a grant of their line which is already on its way (R271, R286). -/
  snps : List Msg := []
  /-- A fetch waits for its line (R333). -/
  fetchPend : Bool := false
  cst : CacheSt := .invalidating
  cache : Tbl CLine := []
  miss : Tbl Miss := []
  wb : Tbl WbEnt := []
  range : Option RangeEng := none
  /-- ENABLE was applied as 1 during a drain (Table 14.5). -/
  reenable : Bool := false
  /-- The line of a cache-held reservation (R370). -/
  resv : Option Nat := none
  /-- The answer to a home-held STCOND (R372). -/
  condGot : Option Bool := none
  /-- The charge it runs: pour and ring slot (R228); none for a START by firmware. -/
  charge : Option (Nat × Nat) := none
  /-- Its queue of charges: pour and ring slot (R228). -/
  work : List (Nat × Nat) := []
  deriving DecidableEq, Repr

/-- What a control core waits for: a pool load, a home-held STCOND, a fetch, a register access that its target does not perform, or a
barrier. -/
inductive CoreWait where
  | none
  | dev (i : QItem) (tag : Nat)
  | load (i : QItem) (tag : Nat)
  | cond (i : QItem) (tag : Nat)
  | fetch (line tag : Nat)
  | mortar
  deriving DecidableEq, Repr

/-- A control core (R135, R482). -/
structure Core where
  mki : Mki := {}
  out : Bool := false
  /-- Stopped by a double trap (R155). -/
  stopped : Bool := false
  wfi : Bool := false
  wait : CoreWait := .none
  /-- Latched interrupt lines: 0 course event, 9 mailbox GO, 10 MCTP message, 12 takeover (log entry 8). -/
  lines : Reg := 0
  ipi : Bool := false
  /-- The line of a reservation on the code store (R484). -/
  codeResv : Option Nat := none
  deriving DecidableEq, Repr

/-- A quoin: its self-test result, the beats of this course, courses in a row with and without all four beats (R494, R495). -/
structure Quoin where
  passed : Bool := false
  booted : Bool := false
  beats : BitVec 4 := 0
  beatRun : Nat := 0
  missRun : Nat := 0
  handover : Bool := false
  deriving DecidableEq, Repr

/-- An access issued to a keystone and not completed (R365): boundaries passed since its issue. `wb` marks a WbD, WbK or EvC of a
crucible cache, and `dev` an access to a register of a keystone that performs nothing more; any other register access completes in
the step that makes it (log entry 36). -/
structure Access where
  aid : Nat
  home : Nat
  line : Nat
  store : Bool
  tag : Nat
  ram : Bool := false
  wb : Bool := false
  dev : Bool := false
  age : Nat := 0
  deriving DecidableEq, Repr

/-! ## Flasks (chapter 17) -/

/-- A flask (R399, R400): its owner and the two words of each of its 16 segments (Table 17.1). -/
structure Flask where
  owner : Nat
  segs : List (Word × Word)
  deriving DecidableEq, Repr

/-! ## Streams and pours (chapter 09) -/

/-- STATE of a stream (Table 9.1). -/
inductive StreamSt where
  | free | ready | bound
  deriving DecidableEq, Repr

/-- A FLASK_LOAD or FLASK_FREE accepted and to be applied at step 1 of the next boundary (R404): the command's queue and SEQ, the flask
number, and its new contents. -/
structure FlaskCmd where
  q : Nat
  seq : Nat
  n : Nat
  img : Option Flask
  deriving DecidableEq, Repr

/-- A stream context entry (Table 9.1); leaves as PPAs. -/
structure Stream where
  leafA : Nat := 0
  leafB : Nat := 0
  owner : Nat := 0
  pour : Nat := 0
  st : StreamSt := .free
  out : Bool := false
  cur : Bool := false
  size : Nat := 0
  skipped : Nat := 0
  lost : Nat := 0
  gen : Nat := 0
  lastCommit : Nat := 0
  deriving DecidableEq, Repr

/-- How far an attempt has come (R228 to R230): in its crucible's queue; started; ended with a report and its cache being flushed, with
that FLUSH_ALL ended or not; done; ended by a trap or a failure before its report; ended at its deadline boundary, whose step 5 records
MISSED. -/
inductive ChargeRun where
  | queued | started
  | flushing (exit : Nat) (incomplete : Bool) (flushed : Bool := false)
  | done (exit : Nat) (incomplete : Bool)
  | lost
  | missed
  deriving DecidableEq, Repr

/-- A charge record (Table 9.5) and its attempt; `deadline` is the course whose closing boundary is its deadline boundary (R230), `dueDeadline` the one
its release gave it, and `bound` the one from which its extensions count (R234). -/
structure Charge where
  arg : Word
  course : Nat
  count : Nat
  stride : Nat
  first : Nat
  outcome : Nat := 0
  cruc : Nat
  ext : Nat := 0
  attempt : Nat := 0
  endCourse : Nat := 0
  run : ChargeRun := .queued
  deadline : Nat
  dueDeadline : Nat
  bound : Nat
  excused : Bool := false
  deriving DecidableEq, Repr

/-- PSTATE of a pour (Table 9.7). -/
inductive PourSt where
  | waiting | running | closing
  deriving DecidableEq, Repr

/-- A pour entry in use (Table 9.7): its descriptor words, its counts, the ring of charge records, and the POUR_CLOSE commands that
wait for its end (queue and SEQ). `ran`: it entered CLOSING because RUNS was exhausted (R222). -/
structure Pour where
  desc : List Word
  owner : Nat
  st : PourSt := .waiting
  opened : Nat
  step : Nat := 0
  commitCourse : Nat := 0
  committed : Nat := 0
  missed : Nat := 0
  lost : Nat := 0
  skipped : Nat := 0
  slipped : Nat := 0
  reruns : Nat := 0
  closed : Bool := false
  ran : Bool := false
  closers : List (Nat × Nat) := []
  next : Nat := 0
  ring : Tbl Charge := []
  deriving DecidableEq, Repr

/-! ## Keystones (chapters 11 to 14, 24) -/

/-- HSTATE with its fields (Table 11.3). -/
inductive DirSt where
  | hs (relay : Option Nat) (vec : BitVec 25)
  | he (owner : Nat)
  deriving DecidableEq, Repr

/-- A directory line entry. -/
structure DirEnt where
  line : Nat
  st : DirSt
  way : Nat
  deriving DecidableEq, Repr

/-- A directory region entry. -/
structure RegEnt where
  gran : Nat
  vec : BitVec 25
  deriving DecidableEq, Repr

/-- Kinds of transaction at a home (R273, R290); `tell` is a Back-Invalidate that leaves the entry as it is (R256). -/
inductive TxKind where
  | client | evict | regionEvict | reclaim | release | tell
  deriving DecidableEq, Repr

/-- The step a transaction is in: a TagQ of a dead owner (R314), a region invalidation (T_RINV), or its own row of Table 11.7. -/
inductive TxPhase where
  | tagq | rinv | main
  deriving DecidableEq, Repr

/-- An open transaction. `wait` are agents whose snoop answer is outstanding; `wbp` agents that answered WBP and whose write-back has
not come; `wbSeen` agents whose write-back came first (R303); `dataWait` agents whose SnpData, or whose MemWr, is announced; `blocks`
hosts and 4-line blocks of the granule whose answer is outstanding (R279). -/
structure Txn where
  line : Nat
  sla : Nat
  kind : TxKind
  phase : TxPhase
  req : Msg
  way : Option Nat := none
  /-- The line whose eviction frees this transaction's way (R298), and the granule whose eviction frees its region entry (R299). -/
  evict : Option Nat := none
  evictReg : Option Nat := none
  region : Bool := false
  snp : Option MsgKind := none
  wait : List Nat := []
  blocks : List (Nat × Nat) := []
  wbp : List Nat := []
  wbSeen : List Nat := []
  dataWait : List Nat := []
  wbKind : Option MsgKind := none
  /-- The snooped crucible sent the data to the requester itself. -/
  fwd : Bool := false
  ack : AckState := .i
  dirty : Option (LineData × Bool) := none
  memPend : Bool := false
  mem : Option (LineData × Bool) := none
  /-- The line is taken back because a domain's access to its extent ends (R256), and that domain was the last holder. -/
  leave : Option Bool := none
  /-- SOURCE of its region at its admission (R280). -/
  near : Bool := false
  /-- Its requester has been declared dead (R311). -/
  gone : Bool := false
  /-- The owner's answer came from reclaim (R313). -/
  reclaimed : Bool := false
  deriving DecidableEq, Repr

/-- Why a home is to take back a line or a granule by itself: a region entry's victim (R299), the end of a domain's access to an extent
(R256), the first step of a sanitize (R259), an entry read with an uncorrectable error (R515). -/
inductive JobWhy where
  | evict
  | leave (hd : Nat) (last : Bool)
  | purge
  | dirUe
  deriving DecidableEq, Repr

/-- An internal transaction that a home has still to open: on a line, or on a granule. -/
structure HomeJob where
  gran : Bool
  sl : Nat
  why : JobWhy
  deriving DecidableEq, Repr

/-- A line of a hearth (R348). -/
structure HLine where
  data : LineData
  poison : Bool
  dirty : Bool
  nru : Bool
  way : Nat
  deriving DecidableEq, Repr

/-- A keystone with its memory port. -/
structure Ks where
  dir : Tbl DirEnt := []
  regions : Tbl RegEnt := []
  /-- Rotating pointers of line sets (R296). -/
  ptr : Tbl Nat := []
  txns : List Txn := []
  /-- Internal transactions to open, in order (R290). -/
  jobs : List HomeJob := []
  /-- Requests waiting at the home, in arrival order (R273). -/
  queue : List Msg := []
  /-- The retry list (R294). -/
  retry : List Msg := []
  /-- Ways reserved for retried requests: set, way, request (R294). -/
  resv : List (Nat × Nat × Msg) := []
  hst : CacheSt := .invalidating
  hearth : Tbl HLine := []
  /-- The eviction buffer (R350): slaLine to data and poison, in order of entry. -/
  evq : List (Nat × LineData × Bool) := []
  hearthReenable : Bool := false
  /-- Reads open at the controller and writes not yet acknowledged, by slaLine (R536). -/
  rdq : List Nat := []
  wrq : List Nat := []
  /-- Agents declared dead whose lines are not yet all reclaimed: in the sweep in progress, and for the next one (R312). -/
  sweep : List Nat := []
  nextSweep : List Nat := []
  sweeping : Bool := false
  /-- Heads whose release sweep runs here (R478 step 3). -/
  release : List Nat := []
  tagFail : List Nat := []
  /-- HEARTH_TAG_LOST events since chip reset (R516). -/
  tagLost : Nat := 0
  /-- Home-held reservations: AID to byte address (R370). -/
  resvs : Tbl Nat := []
  /-- Stays out of service until power-up (R550). -/
  out : Bool := false
  /-- An access to it has been declared dead: it performs nothing more (R365). -/
  stopped : Bool := false
  scrubLeft : Nat := 0
  scrubCe : Nat := 0
  scrubUe : Nat := 0
  /-- Outstanding test lines and their raw check fields (R543). -/
  testLines : List Nat := []
  rawCheck : Tbl (BitVec 128) := []
  rdRaw : Option Nat := none
  wrRaw : Option Nat := none
  deriving DecidableEq, Repr

/-! ## Pool capacity (chapter 10) -/

/-- Block states other than FREE (Table 10.3); an extent's blocks are in one state (R248). -/
inductive ExtSt where
  | offered | granted | releasing | quiescing | sanitizing
  deriving DecidableEq, Repr

/-- An extent (R247, R248): its blocks, tag, holders, the LDs it is offered to and asked back from, and the changes of holders that
take effect at step 1 of the next boundary (R251). -/
structure Extent where
  first : Nat
  len : Nat
  tag : Nat
  st : ExtSt := .offered
  holders : List Nat := []
  offers : List Nat := []
  asked : List Nat := []
  join : List Nat := []
  leave : List Nat := []
  /-- The first line of the extent not yet zero (R261), and whether its last zeroing write has completed. -/
  cursor : Nat := 0
  ended : Bool := false
  deriving DecidableEq, Repr

/-- The last response of an FM API, CCI, LD mailbox or SPDM command. -/
inductive Resp where
  | none
  | success (data : List Nat)
  | invalidInput | unsupported | exhausted
  deriving DecidableEq, Repr

/-- A Dynamic Capacity event of an LD (R255, R256): the extents offered, or the extent asked back. -/
inductive DcEvent where
  | add (exts : List Nat)
  | release (ext : Nat)
  deriving DecidableEq, Repr

/-! ## Host queues, the journal and notices (chapter 18) -/

/-- STATE of a queue (Table 18.8). -/
inductive QSt where
  | disabled | running | stopped | suspended | disabling
  deriving DecidableEq, Repr

/-- A submission slot as read (Table 18.1); `bad` when line 0 was read poisoned or with an error (R584). -/
structure Slot where
  opcode : Word
  args : CmdArgs
  res : List Word
  bad : Bool
  deriving DecidableEq, Repr

/-- STATE of a journal entry (Table 18.5). -/
inductive JSt where
  | taken | accepted | applied | done | written
  deriving DecidableEq, Repr

/-- A journal entry (Table 18.5) with the fields of its completion record (Table 18.6). -/
structure JEntry where
  slot : Slot
  st : JSt := .taken
  status : Nat := 0
  acceptCourse : Nat := 0
  fragdone : Word := 0
  result : Word := 0
  failmap : Word := 0
  deferred : Bool := false
  course : Nat := 0
  sqHead : Nat := 0
  deriving DecidableEq, Repr

/-- A read the set itself makes of a line for a queue (R403, R428, R429): its tag, and once it has ended the data, or none when it was
poisoned or ended with an error (R584). -/
structure OwnRd where
  tag : Nat
  got : Option (Option LineData) := none
  deriving DecidableEq, Repr

/-- A submission queue and its completion queue (Table 18.8, beside the configuration registers). -/
structure HostQ where
  st : QSt := .disabled
  cause : Nat := 0
  /-- 0, or one more than the re-reads made of a slot whose SEAL differed (R429); and whether step 4 of a boundary has asked for the
  next one. -/
  retries : Nat := 0
  reread : Bool := false
  ignored : Nat := 0
  torn : Nat := 0
  sqHead : Nat := 0
  sqDb : Nat := 0
  cqTail : Nat := 0
  cqHead : Nat := 0
  /-- The state and cause it had when it entered SUSPENDED (R440). -/
  backSt : QSt := .running
  backCause : Nat := 0
  /-- SEQ to entry. -/
  entries : Tbl JEntry := []
  /-- The set's own reads for the queue, by line: of its next slot, or of the image of the command being checked. -/
  reads : Tbl OwnRd := []
  /-- No interrupt has been sent since the last CQ_HEAD write (R436). -/
  armed : Bool := true
  deriving DecidableEq, Repr

/-- A notice waiting in the journal (Table 18.7): KIND and the payload words. -/
structure Notice where
  kind : Nat
  words : List Word
  deriving DecidableEq, Repr

/-- An HDM decoder (R456): the range it maps, its interleave, and how its Commit ended. -/
structure Hdm where
  base : Nat := 0
  size : Nat := 0
  skip : Nat := 0
  ways : Nat := 1
  gran : Nat := 256
  dpa : Nat := 0
  committed : Bool := false
  err : Bool := false
  locked : Bool := false
  deriving DecidableEq, Repr

/-- A logical device and its host domain: the suspension causes present (R439), its notices, its events (R255), and its MSI-X
messages held (R455). -/
structure Hd where
  bme : Bool := false
  flr : Bool := false
  d3hot : Bool := false
  /-- The causes of R439 present, in the order of their events. -/
  order : List Nat := [4, 5]
  nqTail : Nat := 0
  nqHead : Nat := 0
  notices : List Notice := []
  lost : Nat := 0
  nqArmed : Bool := true
  events : List DcEvent := []
  /-- The Dynamic Capacity Event Log as posted (R255), the answer of the LD mailbox, and the extents of an Add Dynamic Capacity Response
  that completes after the boundary which applies it. -/
  dcLog : List DcEvent := []
  mbox : Resp := .none
  respDue : Option (List Nat) := none
  /-- The MSI-X table by vector, the pending bits, and Function Mask (R455). -/
  msixTab : Tbl (BitVec 128) := []
  msixHeld : List Nat := []
  msixFmask : Bool := false
  msixSent : Tbl Nat := []
  /-- Device Control and Device Control 2 of the PCI Express capability (R438, R457, R467, R468; log entry 105). -/
  devCtl : BitVec 16 := 0x2810
  devCtl2 : BitVec 16 := 0
  /-- The BAR words of configuration space by offset (Table 19.3), and the AER uncorrectable error status (R458). -/
  bars : Tbl Nat := []
  aer : BitVec 32 := 0
  /-- Dead by BI_TIMEOUT on a head whose link stays up (R309). -/
  biDead : Bool := false
  /-- SANITIZE_ON_FLR and FLR_SANITIZING of the vendor DVSEC (Table 19.8), and the extents an FLR zeroes (R465). -/
  sanOnFlr : Bool := false
  flrSanitizing : Bool := false
  flrExts : List Nat := []
  /-- HDM decoders by number (R456). -/
  decoders : Tbl Hdm := []
  deriving DecidableEq, Repr

/-! ## Ladles (chapter 17) -/

/-- How far a ladle has come with one 64-byte unit of a descriptor: a host-side read open under a gate tag; pool reads open, with what
has come by tag; data held until the write can be sent; a pool write open. -/
inductive LPhase where
  | host (tag : Nat)
  | reads (tags : List Nat) (got : List (Nat × LineData × Bool))
  | data (v : Nat) (bad : Bool)
  | write (tag : Nat)
  deriving DecidableEq, Repr

/-- A unit being moved: the line of the pool range, the bytes of it, its fragment. -/
structure LReq where
  frag : Nat
  line : Nat
  off : Nat
  len : Nat
  ph : LPhase
  deriving DecidableEq, Repr

/-- An accepted descriptor (R411): its queue and SEQ, its eight words with the translated PPAs, the next line to issue, the requests
open, its fragments recorded, failed, failed without a poison mark, and begun (R414 to R416), the final read of ORDERED (R438), and the
lines of a COPY_OUT whose data did not come (R415). -/
structure LDesc where
  q : Nat
  seq : Nat
  w : List Word
  next : Nat := 0
  reqs : List LReq := []
  done : Word := 0
  fail : Word := 0
  noMark : Word := 0
  begun : Word := 0
  lastRead : Option Nat := none
  lastDone : Bool := false
  unsent : List Nat := []
  deriving DecidableEq, Repr

/-- A ladle: its accepted descriptors in order, its window and the bytes left of its budget (R413), and whether it is out of service
or in self-test (R519). -/
structure Ladle where
  descs : List LDesc := []
  opened : Bool := false
  budget : Option Nat := none
  out : Bool := false
  testing : Bool := false
  deriving DecidableEq, Repr

/-! ## Gates and heads (chapters 19, 20) -/

/-- An open or quarantined requester tag (R457, R459): the host domain and ladle of its read, the host address and bytes it asks for,
whether its data is discarded, and the boundaries left of its quarantine. -/
structure HTag where
  hd : Nat
  ladle : Nat
  addr : Nat := 0
  len : Nat := 0
  discard : Bool := false
  left : Option Nat := none
  deriving DecidableEq, Repr

/-- A host-side write of a ladle as its gate sends it (R407, R415, R438, R467): the LD, host address, bytes and data, whether the data is
poisoned, and its Relaxed Ordering and ID-Based Ordering attributes. -/
structure HostWrite where
  hd : Nat
  addr : Nat
  len : Nat
  data : LineData
  poison : Bool
  relaxed : Bool
  ido : Bool
  deriving DecidableEq, Repr

/-- A gate, its link and its slot. -/
structure Gate where
  up : Bool := false
  retraining : Bool := false
  /-- The gate is in Detect or training (R475). -/
  training : Bool := false
  info : LinkInfo := ⟨0, 0, 0, false, false, false, false⟩
  tags : Tbl HTag := []
  /-- Insecure IDE streams (R469), and whether the Link IDE stream is secure. -/
  ideBad : List Nat := []
  ideLink : Bool := false
  perst : Bool := false
  prsnt : Bool := false
  prsntCount : Nat := 0
  attnCount : Nat := 0
  /-- Cokeben's copies of the counts (R476). -/
  seenPrsnt : Nat := 0
  seenAttn : Nat := 0
  /-- An attach is asked for and waits for R316 (Table 20.2). -/
  wantAttach : Bool := false
  /-- The head's link dropped while ATTACHED and has not returned (R480). -/
  dropped : Bool := false
  /-- Detach: waiting for open tags (R478 step 2), or the release sweep runs (step 3). -/
  waitTags : Bool := false
  releasing : Bool := false
  /-- CXL.mem requests without a response at the Stop phase, sent again after step 7 (R555). -/
  kept : List Msg := []
  /-- The last host-side write sent, and how many have been sent (R407, R438). -/
  wrote : Option HostWrite := none
  writes : Nat := 0
  /-- Device Control, Device Control 2 and the BAR words of the FM-owned LD, the value of the last LTR message sent for the head, and how many
  have been sent (R468). -/
  fmCtl : BitVec 16 := 0x2810
  fmCtl2 : BitVec 16 := 0
  fmBars : Tbl Nat := []
  ltr : Nat := 0
  ltrMsgs : Nat := 0
  deriving DecidableEq, Repr

/-! ## The sprue (chapter 16) -/

/-- States of a link (Table 16.4). -/
inductive LinkSt where
  | reset | training | active | retrain | absent | failed
  deriving DecidableEq, Repr

/-- A link as both its ends report it (R388): modules in service, spare lanes in use, retrains in a row without gain (R392). -/
structure Link where
  st : LinkSt := .reset
  modules : Nat := 0
  spares : Nat := 0
  barren : Nat := 0
  deriving DecidableEq, Repr

/-- A message held in a router's buffer: site, input, message (R381, R383). -/
structure Held where
  x : Nat
  p : RPort
  m : NetMsg
  deriving DecidableEq, Repr

/-- A message on a link: in its sender's replay buffer until the receiver has delivered it (R392). `x`, `p` are the receiving router and
its input, `fx`, `fp` the sending router and the input the message came by; `j` the module whose slot stream carries it, from its first
slot on, and `got` its slots delivered so far (R379). -/
structure Wire where
  x : Nat
  p : SPort
  fx : Nat
  fp : RPort
  m : NetMsg
  j : Option Nat := none
  got : Nat := 0
  deriving DecidableEq, Repr

/-! ## Firmware (chapter 21) -/

/-- An image slot of the code store; every quoin present holds the same (R488, R487 step 4; log entry 30). -/
structure FwSlotSt where
  img : Option FwImage := none
  pending : Bool := false
  deriving DecidableEq, Repr

/-- The firmware functions of the active quoin beside its registers. -/
structure Fw where
  slot1 : FwSlotSt := {}
  slot2 : FwSlotSt := {}
  run : Nat := 0
  /-- An online Activate FW is in progress onto this slot (R488, R495). -/
  online : Option Nat := none
  /-- Boot waits at Table 21.3 step 3 for an image over SMBus. -/
  waitImage : Bool := false
  spdm : Bool := false
  mctp : Tbl Nat := []
  /-- A course event has come and Cokeben's scan of the slots has not been made (R476). -/
  scanDue : Bool := false
  /-- Host mailboxes with BUSY 1, and the command accepted at GO (R491). -/
  mail : Tbl Nat := []
  resp : Resp := .none
  deriving DecidableEq, Repr

/-! ## Resets and bring-up (chapter 25) -/

/-- The phase the set is in outside bring-up and service. -/
inductive RstPhase where
  /-- Bring-up, or service when bring-up is done. -/
  | none
  /-- PORST_N is low. -/
  | porst
  /-- The Stop phase is done; crucibles drain (Table 25.3). -/
  | drain (cause : Nat) (src : Nat)
  /-- Held in reset until every die reads below 100 degrees (R512). -/
  | thermHold
  /-- Held as in reset after a shutdown (R562). -/
  | shutdown
  deriving DecidableEq, Repr

/-- What the memory stacks hold of the set's own tables across a power-up with a valid shutdown mark (R551): the block table, the flask
images, the stream and pour tables, the queue configuration and journal, the LDs' notices, and of the operation records the two
registers of R551 and the last recorded boundary. -/
structure Kept where
  extents : Tbl Extent
  sanitizing : List Nat
  unspec : List Nat
  flasks : Tbl Flask
  streams : Tbl Stream
  pours : Tbl Pour
  queues : Tbl HostQ
  notices : Tbl (Nat × Nat × List Notice × Nat)
  cfg : Tbl Reg
  placement : Reg
  cohRegion : Reg
  lastBoundary : Nat
  deriving DecidableEq, Repr

/-- Resets and bring-up. -/
structure Rst where
  phase : RstPhase := .none
  /-- Steps of Table 25.2 that have begun. -/
  steps : List Nat := []
  /-- This bring-up follows a chip reset. -/
  afterChip : Bool := false
  /-- Oscillator time at which this bring-up began. -/
  since : Nat := 0
  /-- Record 0x0060 has been written (R548). -/
  done : Bool := false
  /-- The drain in progress belongs to the sequence of Table 25.5, and PWR_FAIL_N has risen again (R562, R563). -/
  shutting : Bool := false
  recovered : Bool := false
  /-- The tables that a valid shutdown mark stands for, while one stands in the journal (R551). -/
  mark : Option Kept := none
  /-- Crucibles declared dead at Drain, for record 0x0063. -/
  deadDrain : List Nat := []
  /-- Bring-up has stopped at step 7 for a build mismatch (R549). -/
  stopped : Bool := false
  /-- The course of the last recorded boundary (R231), and the records still PENDING that the first step 5 after bring-up acts on
  (R558). -/
  lastBoundary : Nat := 0
  reruns : List (Nat × Nat) := []
  /-- The gates withhold CXL.mem credits (R555). -/
  withheld : Bool := false
  /-- Dies out of service until power-up for their version (R549). -/
  badDies : List Nat := []
  deriving DecidableEq, Repr

/-! ## Test port (chapter 27) -/

/-- The instruction of a TAP (R581); `reset` is Test-Logic-Reset. -/
inductive TapIr where
  | reset | bypass | sample | extest | idcode | regacc
  deriving DecidableEq, Repr

/-! ## Register access (chapter 02) -/

/-- A shadow of a requester (R32, R36): the address of the value's lowest word and the words held, each with the page it was written
through. -/
structure Shadow where
  base : Nat
  words : Tbl (Reg × Page)
  deriving DecidableEq, Repr

/-- What a requester has beside the registers: its shadows, its mark-log cursor, and what its last read returned. -/
structure ReqState where
  rd : Option Shadow := none
  wr : Option Shadow := none
  cursor : Word := 0
  out : Word := 0
  deriving DecidableEq, Repr

/-! ## The state -/

/-- The state of the block. -/
structure State where
  build : Build := .b64
  regs : Tbl Reg := []
  /-- Buffered RWC words (R39). -/
  rwcBuf : Tbl Reg := []
  /-- Requesters by number (`reqKey`). -/
  reqs : Tbl ReqState := []
  /-- Last value of each block's interrupt summary and the interrupts it has sent (R45), by window base. -/
  sumLast : Tbl Bool := []
  irqSent : Tbl Nat := []
  tb : Timebase := {}
  fc : Collector := {}
  ml : MarkLog := {}
  crus : Tbl Cru := []
  /-- Crucibles that have been RUNNING since the last chip reset, so that their cycle counts have moved (log entry 1). -/
  ran : List Nat := []
  cores : Tbl Core := []
  quoins : Tbl Quoin := []
  /-- The active quoin, and the successor of a decided takeover (R495). -/
  active : Nat := 0
  takeover : Option Nat := none
  /-- A takeover decided at step 4 of the boundary that is due, whose boundary step has not been taken. -/
  takeLate : Option Nat := none
  /-- The mould of crucible n from address n * 2^23, and its poisoned 8-byte words (R84). -/
  mould : Mem := []
  mouldPoison : List Nat := []
  /-- The code store of quoin e from address e * 2^23 (R482). -/
  code : Mem := []
  codePoison : List Nat := []
  kss : Tbl Ks := []
  /-- The stack of keystone k from address k * 2^36, and its poisoned lines k * 2^30 + slaLine (R535). -/
  stack : Mem := []
  stackPoison : List Nat := []
  /-- Messages sent and not yet received. -/
  net : List Msg := []
  /-- The next transaction tag. -/
  tags : Nat := 0
  /-- Accesses issued and not completed (R365). -/
  outst : List Access := []
  /-- The flask store; every crucible's copy of its flask equals it (R404, R405). -/
  flasks : Tbl Flask := []
  streams : Tbl Stream := []
  pours : Tbl Pour := []
  /-- Step 6 of the last boundary was paused (R221). -/
  paused : Bool := false
  /-- Extents by number, and the order in which extents entered SANITIZING (R260). -/
  extents : Tbl Extent := []
  sanitizing : List Nat := []
  /-- Regions whose class a Set Region Placement changes at the next boundary (R257), and blocks whose data is unspecified (R265). -/
  placeFm : List Nat := []
  unspec : List Nat := []
  /-- Host queues by Q, and logical devices by HD. -/
  queues : Tbl HostQ := []
  hds : Tbl Hd := []
  flaskPend : List FlaskCmd := []
  ladles : Tbl Ladle := []
  gates : Tbl Gate := []
  /-- Links by 4 x + p of either end, and the messages held in routers. -/
  links : Tbl Link := []
  sprue : List Held := []
  wires : List Wire := []
  /-- Round-robin turns of the outputs of routers (R382), by 30x + 6 × output + channel; channel 5 is the turn among the VNs. -/
  spTurn : Tbl Nat := []
  /-- Slots freed in the buffers of router inputs, whose credits no flit has returned yet (R381), by 20x + 5 × port + channel. -/
  spFreed : Tbl Nat := []
  /-- The sequence number of the next flit each module takes (R379, R392), by 24x + 6 × port + module. -/
  flitSeq : Tbl Nat := []
  /-- Requests that have reached their home ahead of an earlier one of the same requester to the same line (R387). -/
  early : List Msg := []
  /-- A message waits on the escape channel for a port that is not ACTIVE (R394). -/
  sprueHeld : Bool := false
  fw : Fw := {}
  rst : Rst := {}
  taps : Tbl TapIr := []
  /-- EXTEST has taken the board-signal pins, until TRST_N is low again (R582). -/
  pinsTaken : Bool := false
  /-- TRST_N is low; the board holds it so whenever the test port is not in use (R582). -/
  trstLow : Bool := true
  /-- Course boundaries left at which a released charge is excused after a failover (R230). -/
  failoverLeft : Nat := 0
  /-- Keystones to be taken out of service at step 1 of the next boundary (R514). -/
  ksOut : List Nat := []
  /-- Keystones that leave at the boundary after the one that is due. -/
  ksOutLate : List Nat := []
  /-- Agents declared dead (R310), and host domains attached for CXL.mem (R316). -/
  dead : List Nat := []
  attached : List Nat := []
  free : Nat := 0
  pending : List Instr := []
  deriving DecidableEq, Repr

/-- The machine right after reset: PORST_N has risen and no step of Table 25.2 has ended; core 0 of every quoin is out of reset at the
start of its code window (R487, R483). -/
def State.reset : State :=
  { cores := (List.range 4).map (fun e => (4 * e, { out := true, mki := { pc := 0x17A01800000 } })) }

end Sys2Proof.Machine
end

