-- ==== Sys2Proof/Machine/Ops.lean ====
section
/-! DEFINITION. The named operations over registers, records and free values, the block interrupts (R43 to R45), the mark log
(chapter 23), the fault collector (R499 to R509), and entry of a control core into its trap vector and return from it
(R154, R155). -/

namespace Sys2Proof.Machine

open Sys2Proof

/-! ## Register words -/

/-- The stored value of a register word. -/
def State.reg (s : State) (a : Nat) : Reg := tblGet s.regs (resetWord s.build a) a

/-- The state with a register word set. -/
def State.setReg (s : State) (a : Nat) (v : Reg) : State := { s with regs := tblSet s.regs a v }

/-- A field of a register word. -/
def State.fld (s : State) (a lo w : Nat) : Nat := bitsOf (s.reg a) lo w

/-- The state with a field of a register word set. -/
def State.setFld (s : State) (a lo w v : Nat) : State := s.setReg a (setBits (s.reg a) lo w v)

/-- A 64-bit value: low word at `a`, high word at `a + 4` (chapter 02). -/
def State.reg64 (s : State) (a : Nat) : Nat := (s.reg a).toNat + 2 ^ 32 * (s.reg (a + 4)).toNat

/-- The state with a 64-bit value set. -/
def State.setReg64 (s : State) (a v : Nat) : State :=
  (s.setReg a (BitVec.ofNat 32 v)).setReg (a + 4) (BitVec.ofNat 32 (v / 2 ^ 32))

/-- A saturating count in a field of a register word. -/
def State.bump (s : State) (a lo w n : Nat) : State := s.setFld a lo w (satAdd w (s.fld a lo w) n)

/-- A saturating 32-bit count. -/
def State.bump32 (s : State) (a n : Nat) : State := s.setReg a (BitVec.ofNat 32 (satAdd 32 (s.reg a).toNat n))

/-- A saturating 64-bit count. -/
def State.bump64 (s : State) (a n : Nat) : State := s.setReg64 a (satAdd 64 (s.reg64 a) n)

/-! ## Records -/

def State.cru (s : State) (n : Nat) : Cru := tblGet s.crus {} n
def State.setCru (s : State) (n : Nat) (c : Cru) : State := { s with crus := tblSet s.crus n c }
def State.modCru (s : State) (n : Nat) (f : Cru → Cru) : State := s.setCru n (f (s.cru n))
def State.core (s : State) (i : Nat) : Core := tblGet s.cores {} i
def State.setCore (s : State) (i : Nat) (c : Core) : State := { s with cores := tblSet s.cores i c }
def State.modCore (s : State) (i : Nat) (f : Core → Core) : State := s.setCore i (f (s.core i))
def State.quoin (s : State) (e : Nat) : Quoin := tblGet s.quoins {} e
def State.setQuoin (s : State) (e : Nat) (q : Quoin) : State := { s with quoins := tblSet s.quoins e q }
def State.ks (s : State) (k : Nat) : Ks := tblGet s.kss {} k
def State.setKs (s : State) (k : Nat) (x : Ks) : State := { s with kss := tblSet s.kss k x }
def State.modKs (s : State) (k : Nat) (f : Ks → Ks) : State := s.setKs k (f (s.ks k))
def State.hq (s : State) (q : Nat) : HostQ := tblGet s.queues {} q
def State.modHq (s : State) (q : Nat) (f : HostQ → HostQ) : State := { s with queues := tblSet s.queues q (f (s.hq q)) }
def State.hd (s : State) (h : Nat) : Hd := tblGet s.hds {} h
def State.modHd (s : State) (h : Nat) (f : Hd → Hd) : State := { s with hds := tblSet s.hds h (f (s.hd h)) }
def State.ladle (s : State) (l : Nat) : Ladle := tblGet s.ladles {} l
def State.modLadle (s : State) (l : Nat) (f : Ladle → Ladle) : State := { s with ladles := tblSet s.ladles l (f (s.ladle l)) }
def State.gate (s : State) (g : Nat) : Gate := tblGet s.gates {} g
def State.modGate (s : State) (g : Nat) (f : Gate → Gate) : State := { s with gates := tblSet s.gates g (f (s.gate g)) }
def State.modTb (s : State) (f : Timebase → Timebase) : State := { s with tb := f s.tb }
def State.modFc (s : State) (f : Collector → Collector) : State := { s with fc := f s.fc }
def State.modMl (s : State) (f : MarkLog → MarkLog) : State := { s with ml := f s.ml }

/-! ## Free values -/

/-- A fresh free 64-bit value. -/
def State.takeWord (s : State) : Word × State := (Config.freeWord s.free, { s with free := s.free + 1 })

/-- A fresh free choice. -/
def State.takeBool (s : State) : Bool × State := (Config.freeBool s.free, { s with free := s.free + 1 })

/-- A fresh free line. -/
def State.takeLine (s : State) : LineData × State := (Config.freeLine s.free, { s with free := s.free + 1 })

/-- A fresh free number. -/
def State.takeNat (s : State) : Nat × State := (Config.freeNat s.free, { s with free := s.free + 1 })

/-! ## Course and calendar time, as other blocks read them -/

/-- CO_COURSE.COURSE. -/
def State.course (s : State) : Nat := s.tb.course

/-- CO_FRAME_NS.PERIOD. -/
def State.period (s : State) : Nat := s.fld (aCo 0x28) 0 24

/-- What the next frame edge adds to calendar time, and the correction left after it (R56, Table 3.2). -/
def edgeAdvance (period : Nat) : Correction → Nat × Correction
  | .none => (period, .none)
  | .slew left each rest =>
    if left ≤ 1 then ((period + each + rest).toNat, .none) else ((period + each).toNat, .slew (left - 1) each rest)
  | .halfRate left =>
    let h := period - period / 2
    if left ≤ period / 2 then (period - left, .halfRate 0) else (h, .halfRate (left - period / 2))

/-- CO_TIME: interpolated between edges and held below the next edge's value (R56; log entry 10). -/
def State.coTime (s : State) : Nat :=
  match s.tb.lastEdge with
  | none => s.tb.edgeTime
  | some e => s.tb.edgeTime + min (s.tb.now - e) ((edgeAdvance s.period s.tb.corr).1 - 1)

/-- TIME and UNTIMED of a mark-log record (R524). -/
def State.markTime (s : State) : Nat × Bool := if s.tb.timeValid then (s.coTime, false) else (s.tb.now, true)

/-! ## Block interrupts (R43 to R45) -/

/-- Codes of Table 4.4. -/
def cruCode : CruSt → Nat
  | .off => 0 | .selftest => 1 | .standby => 2 | .idle => 3 | .running => 4 | .stopping => 5 | .halted => 6 | .trapped => 7
  | .resetting => 8 | .failed => 9 | .retiring => 10 | .retired => 11

/-- Entries in the fault queue. -/
def State.ftQueued (s : State) : Nat := s.reg64 (aFt 0x30) - s.reg64 (aFt 0x38)

/-- FAULT_N is low: a pulse, or FT_PIN.HOLD (R508). -/
def State.faultLow (s : State) : Bool := s.fc.pulse || s.fld (aFt 8) 0 1 == 1

/-- GT_LINK_STATUS.UP: the link is in L0 and not in Recovery (Table 19.7; DEDUCED). -/
def Gate.inL0 (x : Gate) : Bool := x.up && !x.retraining

/-- <P>_INT_STATUS: the cause bits present in a block (R70, R101, R521, R531, R544 and the blocks' own chapters). -/
def State.causes (s : State) : Win → Reg
  | .co =>
    BitVec.ofNat 32 (b2n s.tb.holdover + 2 * b2n s.tb.todMissing + 4 * b2n (s.tb.running && !s.tb.aligned) +
      8 * b2n (s.tb.running && !s.tb.timeValid))
  | .cr n =>
    let c := s.cru n
    BitVec.ofNat 32 (b2n (c.st == .trapped) + 2 * b2n (c.st == .halted) + 4 * b2n (c.st == .failed))
  | .ks k =>
    BitVec.ofNat 32 (b2n (s.fld (aKs k 0xC514) 0 16 != s.fld (aKs k 0xC518) 0 16) +
      2 * b2n (s.fld (aKs k 0xC480) 0 5 == 16) + 4 * b2n (s.fld (aKs k 0xC004) 31 1 == 1))
  | .ft =>
    BitVec.ofNat 32 (b2n (s.ftQueued != 0) + 2 * b2n (!s.fc.held.isEmpty) + 4 * b2n s.fc.chill + 8 * b2n s.faultLow)
  | .ml => BitVec.ofNat 32 (b2n (3072 ≤ s.ml.written - s.reg64 (aMl 0x28)) + 2 * b2n s.ml.frozen)
  | .qn => 0
  | .gt g =>
    let x := s.gate g
    BitVec.ofNat 32 (b2n (!x.inL0 && x.prsnt) + 2 * b2n (x.tags.any (fun e => e.2.left.isSome)) + 4 * b2n (!x.ideBad.isEmpty))
  | .ld => BitVec.ofNat 32 (b2n (s.fc.held.any (fun h => h.src == 30 || h.src == 31)))
  | .sp =>
    BitVec.ofNat 32 (b2n (s.links.any (fun e => e.2.st == .failed)) + 2 * b2n (s.links.any (fun e => e.2.st == .active && e.2.modules < 6)) +
      4 * b2n s.sprueHeld)

/-- The block's summary (R45). -/
def State.summary (s : State) (w : Win) : Bool := (s.causes w &&& s.reg (winBase w + 0xFF4)) != 0

/-! ## Control cores: traps and interrupts (R154, R155) -/

/-- The number of core c of quoin e. -/
def coreNo (e c : Nat) : Nat := 4 * e + c

/-- Entry into the trap vector (R154): EPC, of whose value the field holds bits [40:3] (Table 6.4), ECAUSE and EADDR, IN_TRAP, IE, and
the fetch from EVEC. -/
def Mki.enter (m : Mki) (epc cause addr : Nat) : Mki :=
  { m with epc := epc / 8 * 8 % 2 ^ 41, ecause := cause, eaddr := addr, inTrap := true, ie := false, pc := m.evec }

/-- Return from a trap (R154): PC := EPC, IE := 1, IN_TRAP := 0. -/
def Mki.leave (m : Mki) : Mki := { m with pc := m.epc, ie := true, inTrap := false }

/-- The AID of control core i (Table 11.1). -/
def aidCore (i : Nat) : Nat := 0x0C0 + i

/-- The end of a control core's home-held reservation (Table 15.4). -/
def State.endResvs (s : State) (aid : Nat) : State :=
  { s with kss := s.kss.map (fun e => (e.1, { e.2 with resvs := tblDel e.2.resvs aid })) }

/-- Core i enters its trap vector (R154). -/
def State.coreEnter (s : State) (i epc cause addr : Nat) : State :=
  (s.modCore i (fun c => { c with mki := c.mki.enter epc cause addr, wfi := false, wait := .none, codeResv := none })).endResvs (aidCore i)

/-- The interrupt lines present at core i (Table 6.4, the table of lines in chapter 21): lines 1 to 8 follow the summaries, 11 the
core's IPI bit, and 0, 9, 10 and 12 are latched (log entry 8). -/
def State.ipend (s : State) (i : Nat) : Reg :=
  let c := s.core i
  let any (ws : List Win) : Nat := b2n (ws.any (fun w => s.summary w))
  (c.lines &&& 0x1601) |||
  (if i / 4 = s.active then
    BitVec.ofNat 32 (2 * any [.co] + 4 * any ((List.range 72).map .cr) + 8 * any ((List.range 24).map .ks) +
      16 * any ((List.range 8).map .gt) + 32 * any [.ld] + 64 * any [.sp] + 128 * any [.ft] + 256 * any [.ml]) else 0) |||
  BitVec.ofNat 32 (2048 * b2n c.ipi)

/-- Core i accepts an interrupt (R154): ECAUSE 0x80. What EADDR then holds is not stated: a free value (log entry 1). The latched lines
accepted end (log entry 8). -/
def State.coreAccept (s : State) (i : Nat) : State :=
  let k := s.core i
  let (v, s1) := s.takeWord
  (s1.coreEnter i k.mki.pc 0x80 (v.toNat % 2 ^ 41)).modCore i (fun k => { k with lines := k.lines &&& ~~~k.mki.ien })

/-- A control core in WFI goes on when a line is set in both IPEND and IEN: with IE set it accepts the interrupt, with EPC at the
instruction after the WFI; otherwise that instruction follows (R194). -/
def State.coreWake (s : State) (i : Nat) : State :=
  let k := s.core i
  if k.wfi && (s.ipend i &&& k.mki.ien) != 0 then
    let s1 := s.modCore i (fun k => { k with wfi := false })
    if k.mki.ie then s1.coreAccept i else s1
  else s

/-- Every core in WFI looks at its lines; done at each event that can set one (R194). -/
def State.wakeCores (s : State) : State :=
  if s.cores.any (fun e => e.2.wfi) then (List.range 16).foldl (fun s i => s.coreWake i) s else s

/-- Compare the summary with its last value and send one interrupt when it has risen (R45); cores in WFI look at their lines. -/
def State.note (s : State) (w : Win) : State :=
  let b := winBase w
  let now := s.summary w
  let s1 := if now && !(tblGet s.sumLast false b) then { s with irqSent := tblSet s.irqSent b (tblGet s.irqSent 0 b + 1) } else s
  { s1 with sumLast := tblSet s1.sumLast b now }.wakeCores

/-- REARM: one interrupt when the summary is 1 (R45). -/
def State.rearm (s : State) (w : Win) : State :=
  let b := winBase w
  if s.summary w then { s with irqSent := tblSet s.irqSent b (tblGet s.irqSent 0 b + 1) } else s

/-! ## The mark log (chapter 23) -/

/-- FREEZE_LIMIT; 0 acts as 1. -/
def State.freezeLimit (s : State) : Nat := max 1 (s.fld (aMl 0) 8 8)

/-- The last record, when a further event may merge into it (R525, R530). -/
def MarkLog.last (m : MarkLog) : Option MarkRec :=
  if m.written ≠ 0 ∧ m.base ≤ m.written - 1 ∧ m.closed = false then tblFind m.ring ((m.written - 1) % 4096) else none

/-- Write record ML_WRITTEN. -/
def MarkLog.write (m : MarkLog) (r : MarkRec) : MarkLog :=
  { m with ring := tblSet m.ring (m.written % 4096) r, written := m.written + 1, lastTime := r.time, closed := false }

/-- Enter an event: count it as missed while frozen, merge it, or write it (R525, R528). -/
def MarkLog.enter (m : MarkLog) (r : MarkRec) : MarkLog :=
  if m.frozen then { m with missed := satAdd 32 m.missed 1 }
  else
    match m.last with
    | some l =>
      if l.code = r.code ∧ l.cls = r.cls ∧ l.unit = r.unit then
        { m with ring := tblSet m.ring ((m.written - 1) % 4096) { l with rep := satAdd 32 l.rep 1 }, lastTime := r.time }
      else m.write r
    | none => m.write r

/-- A record of an event detected now. -/
def State.markRec (s : State) (code cls unit : Nat) (forced : Bool) (p0 p1 p2 p3 : Nat) : MarkRec :=
  { time := s.markTime.1, code := code, cls := cls, untimed := s.markTime.2, holdover := s.tb.holdover, forced := forced, unit := unit,
    rep := 0, p0 := p0 % 2 ^ 32, p1 := p1 % 2 ^ 32, p2 := p2 % 2 ^ 32, p3 := p3 % 2 ^ 32 }

/-- Enter an event of a class other than a fault: class NOTE (R522). -/
def State.mark (s : State) (code unit p0 p1 p2 p3 : Nat) : State :=
  (s.modMl (·.enter (s.markRec code 0 unit false p0 p1 p2 p3))).note .ml

/-- CLEAR acts: ML_BASE := ML_WRITTEN, then record 0x0001 (R529). -/
def State.mlClearNow (s : State) : State :=
  let d := s.ml.written - s.ml.base
  let r := s.markRec 1 0 unitSet false d (d / 2 ^ 32) 0 0
  s.modMl (fun m => { m with base := m.written, heldClear := false }.write r)

/-- The end of a freeze: a held CLEAR acts, record 0x0002 tells missed events, and the last record takes no merge (R528, R529). -/
def State.mlThaw (s : State) : State :=
  if s.ml.frozen then
    let s1 := s.modMl (fun m => { m with frozen := false })
    let s2 := if s1.ml.heldClear then s1.mlClearNow else s1
    let s3 := if s2.ml.missed ≠ 0 then s2.modMl (·.write (s2.markRec 2 0 unitSet false s2.ml.missed 0 0 0)) else s2
    (s3.modMl (fun m => { m with closed := true })).note .ml
  else s

/-- FREEZE (R528). -/
def State.mlFreeze (s : State) : State :=
  (s.modMl (fun m =>
    if m.frozen then { m with frozenCourses := 0 } else { m with frozen := true, missed := 0, frozenCourses := 0 })).note .ml

/-- CLEAR (R529): held while the log is frozen. -/
def State.mlClear (s : State) : State :=
  if s.ml.frozen then s.modMl (fun m => { m with heldClear := true }) else s.mlClearNow.note .ml

/-! ## Control cores: latched lines -/

/-- Latch a line at all four cores of a quoin. -/
def State.latchLine (s : State) (e line : Nat) : State :=
  ((List.range 4).foldl (fun s c => s.modCore (coreNo e c) (fun k => { k with lines := k.lines ||| BitVec.ofNat 32 (2 ^ line) })) s).wakeCores

/-! ## The fault collector (R499 to R509) -/

/-- The first word of a fault queue entry (Table 22.7); bit 15 is VALID in the latch. -/
def faultW0 (course : Nat) (valid forced : Bool) (cls src : Nat) : Nat :=
  course % 2 ^ 48 * 2 ^ 16 + b2n valid * 2 ^ 15 + b2n forced * 2 ^ 8 + cls * 2 ^ 6 + src

/-- The second word of a fault queue entry (Table 22.7). -/
def faultW1 (param unit : Nat) : Nat := param % 2 ^ 48 * 2 ^ 16 + unit % 2 ^ 10

/-- Put an entry into the fault queue at FT_Q_TAIL (R506). -/
def State.ftPut (s : State) (w0 w1 : Nat) : State :=
  let t := s.reg64 (aFt 0x30)
  let b := aFt (0x8000 + 16 * (t % 256))
  ((s.setReg64 b w0).setReg64 (b + 8) w1).setReg64 (aFt 0x30) (t + 1)

/-- Held events enter the queue in detection order as entries free (R507). -/
def State.heldIn (s : State) : Nat → State
  | 0 => s
  | fuel + 1 =>
    match s.fc.held with
    | [] => s
    | h :: t => if s.ftQueued < 256 then ((s.modFc (fun f => { f with held := t })).ftPut h.w0.toNat h.w1.toNat).heldIn fuel else s

/-- The set is held in reset, or a chip reset runs, so that events are lost (R504). -/
def State.inReset (s : State) : Bool := s.rst.phase != .none

/-- Whether gate g is in service: its E-die stands in the build and reported the set's version (R5, R549). -/
def State.gateIn (s : State) (g : Nat) : Bool := hasGt s.build g && !s.rst.badDies.contains (siteE (g / 2))

/-- A control core begins to run: an AID declared dead is live again (R310). -/
def State.startCore (s : State) (i : Nat) (c : Core) : State := { s with dead := setDel s.dead (aidCore i) }.setCore i c

/-- Host commands, ladles and the journal rest: in a reset, and after a chip reset until step 10 of bring-up has taken them up
(R552, R559). -/
def State.onHold (s : State) : Bool := s.inReset || (s.rst.afterChip && !s.rst.steps.contains 10)

/-- The gates withhold CXL.io credits, so that host accesses to registers wait at the host (R555). -/
def State.ioHeld (s : State) : Bool := s.inReset || (s.rst.afterChip && !s.rst.steps.contains 8)

/-- The board-signal pins act: PORST_N is high, and no TAP has taken them with EXTEST (R579, R582; log entry 34). -/
def State.pinsLive (s : State) : Bool := s.rst.phase != .porst && !s.pinsTaken

/-- QN_TAKEOVER.MISS_LIMIT of the active quoin; 0 acts as 1. -/
def State.missLimit (s : State) : Nat := max 1 (s.fld (aQnOf s.active 0x30008) 8 4)

/-- A dormant quoin is warm: all four beats in each of the last MISS_LIMIT courses (R494). -/
def State.warm (s : State) (e : Nat) : Bool :=
  let q := s.quoin e
  hasE s.build e && e != s.active && q.passed && q.booted && s.missLimit ≤ q.beatRun

/-- The successor (R494). -/
def State.successor (s : State) : Option Nat := (List.range 4).find? (fun e => s.warm e)

/-- Events the collector loses (R504). -/
def State.eventsLost (s : State) (ev : FaultEv) : Bool :=
  s.inReset ||
  (ev.unit < 72 && (s.cru ev.unit).st == .resetting && !ev.forced)

/-- Steps 1 to 4 of R500 but for the NMT reaction; a crucible failure is reported to the pour engine (R232, R503), and a
keystone named by KS_OUT or ACCESS_DEAD leaves service at the next boundary (R514, R517). HEARTBEAT_LOST with no warm quoin leads to a
chip reset at the next boundary (R520). -/
def State.collect (s : State) (ev : FaultEv) (ctx : Nat := 0) : State :=
  let n := ev.src.val
  let i := srcInfo n
  let rx := (s.reg (aFt (0x4000 + 4 * n))).toNat
  let w0 := faultW0 s.course false ev.forced i.cls n
  let w1 := faultW1 ev.param ev.unit
  let s1 := s.bump32 (aFt (0x4100 + 4 * n)) 1
  let s2 :=
    if i.cls ≠ 0 ∧ s1.fld (aFt 0x10) 15 1 = 0 then (s1.setReg64 (aFt 0x10) (faultW0 s.course true ev.forced i.cls n)).setReg64 (aFt 0x18) w1
    else s1
  let s3 := (s2.modMl (·.enter (s2.markRec (0x100 + n) i.cls ev.unit ev.forced ev.param (ev.param / 2 ^ 32 % 2 ^ 16) ev.param2 ev.param3))).note .ml
  let s3 := s3.heldIn s3.fc.held.length
  let s4 :=
    if rx % 2 = 1 then
      if s3.ftQueued < 256 then s3.ftPut w0 w1
      else if i.stall then s3.modFc (fun f => { f with held := f.held ++ [⟨n, ctx, BitVec.ofNat 64 w0, BitVec.ofNat 64 w1⟩] })
      else s3.bump32 (aFt 0x2C) 1
    else s3
  let s5 :=
    if rx / 4 % 2 = 1 then
      if ev.unit < 72 then s4.modFc (fun f => { f with blkCru := setIns f.blkCru ev.unit })
      else if 0x80 ≤ ev.unit ∧ ev.unit < 0xC0 then s4.modFc (fun f => { f with blkLd := setIns f.blkLd (ev.unit - 0x80) })
      else s4
    else s4
  let s6 := if rx / 8 % 2 = 1 then s5.modFc (fun f => { f with chip := f.chip.or (some n) }) else s5
  let s7 := if rx / 16 % 2 = 1 then s6.modFc (fun f => { f with pulse := true }) else s6
  let s8 := if i.cls = 3 then s7.modFc (fun f => { f with aliveStopped := true, aliveBy := s.active }) else s7
  let s9 := if 3 ≤ n ∧ n < 8 ∧ ev.unit < 72 then s8.modFc (fun f => { f with failReports := setIns f.failReports ev.unit }) else s8
  let s10 := if (n = 19 ∨ n = 20) ∧ 0x200 ≤ ev.unit ∧ ev.unit < 0x218 then { s9 with ksOut := setIns s9.ksOut (ev.unit - 0x200) } else s9
  let s11 := if n = 42 ∧ s10.successor.isNone then s10.modFc (fun f => { f with hbLost := true }) else s10
  (s11.note .ft).note .ld

/-- The NMT reaction (Table 22.2): core 0 of the active quoin enters its trap vector with ECAUSE 0x81; a core already in a trap stops,
and its quoin raises the control-core fault (R155). What EADDR then holds is not stated: a free value (log entry 1). -/
def State.nmt (s : State) : State :=
  let i := coreNo s.active 0
  let c := s.core i
  if !c.out || c.stopped then s
  else if c.mki.inTrap then
    (s.modCore i (fun c => { c with stopped := true })).collect { src := 40, unit := unitCore s.active 0 }
  else
    let (v, s1) := s.takeWord
    s1.coreEnter i c.mki.pc 0x81 (v.toNat % 2 ^ 41)

/-- An event taken by the collector, with its NMT reaction. -/
def State.raiseOne (s : State) (ev : FaultEv) (ctx : Nat) : State :=
  let s1 := s.collect ev ctx
  if (s.reg (aFt (0x4000 + 4 * ev.src.val))).toNat / 2 % 2 = 1 then s1.nmt else s1

/-- A fault event at detection (R500). Events of reserved numbers do not exist (R501); events the collector loses under R504 do
nothing. ACCESS_DEAD of a keystone in service is followed by its KS_OUT (R514, R517). -/
def State.raise (s : State) (ev : FaultEv) (ctx : Nat := 0) : State :=
  if !srcAssigned ev.src.val || s.eventsLost ev then s
  else
    let s1 := s.raiseOne ev ctx
    let k := ev.unit - 0x200
    if ev.src = 20 && 0x200 ≤ ev.unit && ev.unit < 0x218 && (s.reg 0x24004).getLsbD k && !s.ksOut.contains k then
      s1.raiseOne { src := 19, unit := ev.unit, forced := ev.forced } 0
    else s1

/-- A fault event of source n that names a unit and carries PARAM. -/
def State.raiseAt (s : State) (n : Fin 64) (unit : Nat) (param : Nat := 0) : State := s.raise { src := n, unit := unit, param := param }

/-- Whether a context is held by a full fault queue (R507). -/
def State.isHeld (s : State) (srcs : List Nat) (ctx : Nat) : Bool := s.fc.held.any (fun h => srcs.contains h.src && h.ctx == ctx)

/-- A trap of control core i (R154, R155). -/
def State.coreTrap (s : State) (i epc cause addr : Nat) : State :=
  if (s.core i).mki.inTrap then
    (s.modCore i (fun c => { c with stopped := true, wait := .none })).raise { src := 40, unit := unitCore (i / 4) (i % 4) }
  else s.coreEnter i epc cause addr

/-! ## Trap codes (Table 6.7) -/

def tFetch : Nat := 0x01
def tFetchPoison : Nat := 0x02
def tIllegal : Nat := 0x03
def tProfile : Nat := 0x04
def tRange : Nat := 0x05
def tMisaligned : Nat := 0x06
def tFlask : Nat := 0x07
def tDevice : Nat := 0x08
def tMouldPoison : Nat := 0x09
def tPoolPoison : Nat := 0x0A
def tMemError : Nat := 0x0B
def tSyncOverflow : Nat := 0x0C
def tBreak : Nat := 0x0D

/-! ## Traps of a crucible (R151) -/

/-- The code of a queue in CR_TRAP.QUEUE (Table 4.7). -/
def queueCode : QueueId → Nat
  | .seq => 0 | .mq0 => 1 | .mq1 => 2 | .vq => 3 | .xq => 4

/-- A crucible meets a trap (R151): the first is kept (R152), dispatch stops, and entries that have not started are discarded. The head
of XQ has started when it has sent a request or moved data. Traps met during a STOPPING that ABORT entered are discarded (R92). -/
def State.cruTrap (s : State) (n : Nat) (q : QueueId) (code pc addr : Nat) : State :=
  let c := s.cru n
  if c.trap.isSome ∨ ¬(c.st = .running ∨ (c.st = .stopping ∧ c.stopBy = .stop)) then s
  else
    let keep : List QEntry := match c.xq with
      | .op i :: _ => if i.sent || i.prog != 0 then (if q = .xq then [] else [.op i]) else []
      | _ => []
    s.setCru n { c with trap := some ⟨queueCode q, code, pc, addr⟩, mq0 := [], mq1 := [], vq := [], xq := keep, seqw := .none }

end Sys2Proof.Machine
end

