-- ==== Sys2Proof/Machine/PoolMap.lean ====
section
/-! DEFINITION. The pool map (R238 to R243): from a pool physical address to its home keystone and stack-local address; the blocks
and regions of the pool (R241, R244, R246), hop counts (R278), and what of the pool an agent reaches. -/

namespace Sys2Proof.Machine

open Sys2Proof

/-- K: the keystones of the build (R238). The map does not change when a keystone leaves service (R514). -/
def State.kCount (s : State) : Nat := (buildKeys s.build).length

/-- The size of a row: K GiB (R238). -/
def State.rowSize (s : State) : Nat := 2 ^ 30 * s.kCount

/-- The first PPA with no memory behind it (R239). -/
def State.poolSize (s : State) : Nat := 64 * s.rowSize

/-- The rotation term f(r) (R242). -/
def mapRot (r : Nat) : Nat :=
  (r % 32) ^^^ (r / 2 ^ 5 % 32) ^^^ (r / 2 ^ 10 % 32) ^^^ (r / 2 ^ 15 % 8)

/-- Keystone groups present, in rising order (R15, R242). -/
def State.groups (s : State) : List Nat := ((buildKeys s.build).map (· / 3)).eraseDups

/-- Region d of a PPA (R241). -/
def State.regionOf (s : State) (ppa : Nat) : Nat := ppa / s.rowSize / 8

/-- Whether region d is NEAR (R241): region 7 never is, nor any region of a build with fewer than three keystones. -/
def State.isNear (s : State) (d : Nat) : Bool := d < 7 && 3 ≤ s.kCount && (s.reg 0x24008).getLsbD d

/-- The home keystone and the stack-local address of a PPA (R242); none where there is no memory (R239). -/
def State.poolMap (s : State) (ppa : Nat) : Option (Nat × Nat) :=
  if s.poolSize ≤ ppa then none
  else
    let row := ppa / s.rowSize
    let o := ppa % s.rowSize
    let near := s.isNear (row / 8)
    let gi := o / (3 * 2 ^ 30)
    let o' := if near then o % (3 * 2 ^ 30) else o
    let n := if near then 3 else s.kCount
    let g := o' / 2 ^ 12
    let r := g / n
    let q := (g + mapRot r) % n
    let key := if near then 3 * s.groups.getD gi 0 + q else (buildKeys s.build).getD q 0
    some (key, 2 ^ 30 * row + 2 ^ 12 * r + ppa % 2 ^ 12)

/-- The PPA of a stack-local address of keystone k: the inverse of R242. -/
def State.poolUnmap (s : State) (k sla : Nat) : Nat :=
  let row := sla / 2 ^ 30
  let r := sla % 2 ^ 30 / 2 ^ 12
  let near := s.isNear (row / 8)
  let n := if near then 3 else s.kCount
  let q := if near then k % 3 else (buildKeys s.build).idxOf k
  let gi := if near then s.groups.idxOf (k / 3) else 0
  row * s.rowSize + 3 * 2 ^ 30 * gi + 2 ^ 12 * (r * n + (q + 32 * n - mapRot r) % n) + sla % 2 ^ 12

/-- The home and the stack-local line of a line number (PPA div 64). -/
def State.homeOf (s : State) (line : Nat) : Option (Nat × Nat) :=
  match s.poolMap (64 * line) with
  | some (k, sla) => some (k, sla / 64)
  | none => none

/-- Whether keystone k is in service (Table 10.6). -/
def State.keyUp (s : State) (k : Nat) : Bool := (s.reg 0x24004).getLsbD k

/-- The home of a line when it has one in service (R239, R514). -/
def State.homeUp (s : State) (line : Nat) : Option Nat :=
  match s.homeOf line with
  | some (k, _) => if s.keyUp k then some k else none
  | none => none

/-- The first PPA of the foundation row (R244). -/
def State.foundation (s : State) : Nat := 63 * s.rowSize

/-- The code window's first PPA (R483). -/
def State.codeWindow (s : State) : Nat := s.foundation + 0x01800000

/-- The block of a PPA (R246), 256 MiB each; carvable when it lies in rows 0 to 62 (R244). -/
def blockOf (ppa : Nat) : Nat := ppa / 2 ^ 28
def State.carvable (s : State) (b : Nat) : Bool := b < 63 * 4 * s.kCount

/-- The extent that covers a block. -/
def State.extOf (s : State) (b : Nat) : Option (Nat × Extent) := s.extents.find? (fun e => e.2.first ≤ b && b < e.2.first + e.2.len)

/-- A host domain holds a block in GRANTED or RELEASING (R252). -/
def State.holds (s : State) (h b : Nat) : Bool :=
  match s.extOf b with
  | some (_, e) => (e.st == .granted || e.st == .releasing) && e.holders.contains h
  | none => false

/-- SOURCE[d] and RSHARE[d] of a line's region (R277 to R279). -/
def State.srcNearest (s : State) (line : Nat) : Bool := (s.reg 0x28000).getLsbD (s.regionOf (64 * line))
def State.rshare (s : State) (line : Nat) : Bool := (s.reg 0x28000).getLsbD (8 + s.regionOf (64 * line))

/-! ## Agents (Table 11.1) -/

def aidLadle (l : Nat) : Nat := 0x080 + l
def aidHd (h : Nat) : Nat := 0x100 + h
def isCruAid (a : Nat) : Bool := a < 72
def isLadleAid (a : Nat) : Bool := 0x080 ≤ a && a < 0x0C0
def isCoreAid (a : Nat) : Bool := 0x0C0 ≤ a && a < 0x0D0
def isHostAid (a : Nat) : Bool := 0x100 ≤ a && a < 0x180

/-- The die site of an agent; a host stands at its gate's E-die (R278). -/
def siteAid (a : Nat) : Nat :=
  if isCruAid a then siteCru a
  else if isLadleAid a then siteE ((a - 0x80) / 16)
  else if isCoreAid a then siteE ((a - 0xC0) / 4)
  else siteE ((a - 0x100) / 16 / 2)

/-- Hops between two sites (R278). -/
def hops (x y : Nat) : Nat :=
  (max (x % 10) (y % 10) - min (x % 10) (y % 10)) + (max (x / 10) (y / 10) - min (x / 10) (y / 10))

/-- The sharer-group bit of an agent (R268). -/
def groupBit (a : Nat) : Nat := if isCruAid a then 16 + a / 8 else (a - 0x100) / 8

/-- The sharer vector with an agent's group added. -/
def vecAdd (v : BitVec 25) (a : Nat) : BitVec 25 := v ||| BitVec.ofNat 25 (2 ^ groupBit a)

/-- Whether a vector covers an agent. -/
def vecHas (v : BitVec 25) (a : Nat) : Bool := v.getLsbD (groupBit a)

/-- Whether a crucible is snooped: it is neither RETIRED nor in STANDBY (R284), nor declared dead, when reclaim gives its answers
(R311). -/
def State.snooped (s : State) (n : Nat) : Bool := (s.cru n).st != .retired && (s.cru n).st != .standby && !s.dead.contains n

/-- Crucibles that snoops of a vector go to (R284). -/
def State.vecCrus (s : State) (v : BitVec 25) : List Nat :=
  (buildCrus s.build).filter (fun n => v.getLsbD (16 + n / 8) && s.snooped n)

/-- Attached host domains that Back-Invalidate snoops of a vector go to (R284, R312). -/
def State.vecHosts (s : State) (v : BitVec 25) : List Nat :=
  (s.attached.filter (fun h => v.getLsbD (h / 8))).map aidHd

/-! ## Requests -/

/-- REQ messages of Table 11.5: those that take a credit (R286). -/
def isReqKind : MsgKind → Bool
  | .rds | .rdx | .upg | .rdc | .wrf | .wrp | .wbd | .wbk | .evc | .ram => true
  | _ => false

/-- Who holds the credits an agent sends with: itself, or the gate of a host domain (R286, R291). -/
def creditKey (aid : Nat) : Nat := if isHostAid aid then 0x400 + (aid - 0x100) / 16 else aid

/-- Credits in use at a home by the holder of an agent's credits (R286): requests sent that are not yet admitted, without one resent with
the reserved credit of R291. -/
def State.creditsUsed (s : State) (aid k : Nat) : Nat :=
  let own (m : Msg) : Bool := creditKey m.aid == creditKey aid && !(s.ks k).resv.any (fun r => r.2.2 == m)
  (s.net.countP (fun m => isReqKind m.kind && m.home == k && own m)) + ((s.ks k).queue.countP own)

/-- REQ credits of their holder (R286). -/
def creditsOf (aid : Nat) : Nat := if isCruAid aid then 16 else if isHostAid aid then 64 else 4

/-- Tracker entries of the internal share (R290): the 4096 without one for every REQ credit and every reserved credit of the build. -/
def internalShare (b : Build) : Nat := 4096 - (17 * (buildCrus b).length + 230 * buildEdies b)

/-- Whether an internal transaction finds an entry in the tracker (R290). -/
def State.internalRoom (s : State) (k : Nat) : Bool := (s.ks k).txns.countP (·.kind != .client) < internalShare s.build

/-- Whether an agent holds a credit at a home. -/
def State.hasCredit (s : State) (aid k : Nat) : Bool := s.creditsUsed aid k < creditsOf aid

/-- A message put on its way. -/
def State.send (s : State) (m : Msg) : State := { s with net := s.net ++ [m] }

/-- The messages in flight without one copy of `m`. -/
def State.recv (s : State) (m : Msg) : State := { s with net := s.net.erase m }

/-- A fresh transaction tag. -/
def State.newTag (s : State) : Nat × State := (s.tags, { s with tags := s.tags + 1 })

/-- An access issued toward a target (R365). -/
def State.issue (s : State) (a : Access) : State := { s with outst := s.outst ++ [a] }

/-- An access completed. -/
def State.complete (s : State) (aid tag : Nat) : State :=
  { s with outst := s.outst.filter (fun a => !(a.aid == aid && a.tag == tag)) }

end Sys2Proof.Machine
end

