-- ==== Sys2Proof/Machine/Tables.lean ====
section
/-! DEFINITION. The set's own tables as they stand in the foundation row (R244, Table 10.2): the stream context table (Table 9.1), the pour
table (Table 9.7), the block table and the journal (Tables 18.4, 18.5). The machine keeps them as records; a read of their lines at a home
shows those records' bytes (log entry 16). -/

namespace Sys2Proof.Machine

open Sys2Proof

def streamCode : StreamSt → Nat | .free => 0 | .ready => 1 | .bound => 2
def pourCode : PourSt → Nat | .waiting => 1 | .running => 2 | .closing => 3

/-- STATE of a journal entry (Table 18.5). -/
def jstCode : JSt → Nat | .taken => 1 | .accepted => 2 | .applied => 3 | .done => 4 | .written => 5

/-- A 64-bit word from fields given as (position, value). -/
def packWord (l : List (Nat × Nat)) : Word := BitVec.ofNat 64 (l.foldl (fun acc e => acc + e.2 * 2 ^ e.1) 0)

/-- A line from its eight 8-byte words. -/
def lineFrom (ws : List Word) : LineData := BitVec.ofNat 512 ((ws.take 8).foldr (fun w acc => w.toNat + 2 ^ 64 * acc) 0)

/-- A stream context entry (Table 9.1). -/
def Stream.words (t : Stream) : List Word :=
  [packWord [(0, t.leafA)], packWord [(0, t.leafB)],
   packWord [(36, t.owner), (24, t.pour), (20, streamCode t.st), (18, b2n t.out), (17, b2n t.cur), (0, t.size)],
   packWord [(48, t.skipped), (32, t.lost), (0, t.gen)], packWord [(0, t.lastCommit)], 0, 0, 0]

/-- A pour entry (Table 9.7). -/
def Pour.words (x : Pour) : List Word :=
  x.desc ++ [packWord [(8, x.owner), (0, pourCode x.st)], packWord [(0, x.step)], packWord [(0, x.commitCourse)],
    packWord [(32, x.missed), (0, x.committed)], packWord [(32, x.skipped), (0, x.lost)], packWord [(32, x.reruns), (0, x.slipped)], 0, 0]

/-- A completion record (Table 18.6). -/
def JEntry.record (e : JEntry) (n : Nat) : List Word :=
  let tag := if e.slot.opcode = 1 then e.slot.args.payload.getD 5 0 else e.slot.args.tag
  [BitVec.ofNat 64 n, tag, packWord [(0, e.status), (8, e.slot.opcode.toNat % 256), (16, b2n e.deferred)], e.result, e.failmap,
   packWord [(0, e.course)], BitVec.ofNat 64 e.sqHead, 0]

/-- Line i of the journal entry of SEQ n (Table 18.5): the slot as read, the entry's own words, and the record once formed. The layout of
EFFECT is not given: its words come from `free`. -/
def JEntry.line (e : JEntry) (n : Nat) (free : LineData) : Nat → LineData
  | 0 => lineFrom e.slot.args.payload
  | 1 => lineFrom ([e.slot.opcode, e.slot.args.tag, e.slot.args.param0, e.slot.args.param1, e.slot.args.response] ++ e.slot.res ++
      [BitVec.ofNat 64 n])
  | 2 => lineFrom ([BitVec.ofNat 64 n, packWord [(0, jstCode e.st), (8, e.status), (16, e.acceptCourse)], e.fragdone] ++
      (List.range 5).map (fun i => free.extractLsb' (64 * i) 64))
  | _ => if 4 ≤ jstCode e.st then lineFrom (e.record n) else 0

/-- The line at an offset of the foundation row where it belongs to a table (Tables 10.2, 18.4). What the spec gives no layout is a free
value: the block table with its extent records, the headers, the operation records, the notice stores and an unused entry. -/
def State.tableLine (s : State) (o : Nat) (free : LineData) : Option LineData :=
  if o < 0x1000000 then some (lineFrom (tblGet s.streams {} (o / 64)).words)
  else if o < 0x1080000 then
    some (match tblFind s.pours ((o - 0x1000000) / 128) with
      | some x => lineFrom (x.words.drop (8 * (o / 64 % 2)))
      | none => 0)
  else if o < 0x1100000 then some free
  else if o < 0x2000000 then none
  else if o < 0x2200000 then some free
  else if o < 0x22200000 then
    let i := (o - 0x2200000) / 256
    some (match (tblFind s.queues (i / 1024)).bind (fun q => q.entries.find? (fun e => (e.1 + 1023) % 1024 == i % 1024)) with
      | some e => e.2.line e.1 free (o / 64 % 4)
      | none => if o / 64 % 4 = 2 then free &&& ~~~ (BitVec.ofNat 512 (7 * 2 ^ 64)) else free)
  else if o < 0x22A00000 then some free
  else none

/-- The table line that stands at line sl of keystone k, when it lies in row 63. -/
def State.tableAt (s : State) (k sl : Nat) : Option LineData :=
  if sl < 63 * 2 ^ 24 then none
  else s.tableLine (s.poolUnmap k (64 * sl) - s.foundation) (Config.freeLine (s.free + 2 ^ 64 * (2 ^ 30 * k + sl)))

end Sys2Proof.Machine
end

