-- ==== Sys2Proof/Machine/Home.lean ====
section
/-! DEFINITION. The home of a keystone (chapters 11, 12): hearth and stack (R348 to R353, R534 to R541), directory, admission of
requests (Table 11.7, R292 to R299), snoop answers and crossings (Table 12.3), closing of transactions, and reclaim of a dead
agent's lines (R310 to R314). -/

namespace Sys2Proof.Machine

open Sys2Proof

/-! ## Stack and hearth -/

/-- Whether R265 leaves the data of a line of keystone k unspecified. -/
def State.unspecAt (s : State) (k sl : Nat) : Bool := !s.unspec.isEmpty && s.unspec.contains (s.poolUnmap k (64 * sl) / 2 ^ 28)

/-- A line of the stack beside keystone k, with its poison bit (R535). In a block whose data R265 leaves unspecified it is a free value
(log entry 1). -/
def State.stackLine (s : State) (k sl : Nat) : LineData × Bool :=
  if s.unspecAt k sl then (Config.freeLine (s.free + 2 ^ 64 * (2 ^ 30 * k + sl)), false)
  else (memLine s.stack (2 ^ 36 * k + sl * 64), s.stackPoison.contains (2 ^ 30 * k + sl))

/-- A WR performed at the stack: data and poison bit (R535). -/
def State.stackWrite (s : State) (k sl : Nat) (d : LineData) (p : Bool) : State :=
  { s with stack := memSetLine s.stack (2 ^ 36 * k + sl * 64) d, stackPoison := setPut s.stackPoison (2 ^ 30 * k + sl) p }

/-- Set of a line in the hearth (R348), in the line directory and of a granule in the region directory (R274). -/
def hearthSet (sl : Nat) : Nat := (sl % 2 ^ 15) ^^^ (sl / 2 ^ 15 % 2 ^ 15)
def dirSet (sl : Nat) : Nat := (sl % 2 ^ 17) ^^^ (sl / 2 ^ 17 % 2 ^ 13)
def regSet (g : Nat) : Nat := (g % 2 ^ 15) ^^^ (g / 2 ^ 15 % 2 ^ 9)

/-- A line with its NRU bit set; when all 16 bits of the set are then set, the others are cleared (R350). -/
def hearthTouch (h : Tbl HLine) (sl : Nat) : Tbl HLine :=
  let h1 := h.map (fun e => if e.1 = sl then (e.1, { e.2 with nru := true }) else e)
  if (h1.countP (fun e => hearthSet e.1 == hearthSet sl && e.2.nru)) = 16 then
    h1.map (fun e => if hearthSet e.1 = hearthSet sl ∧ e.1 ≠ sl then (e.1, { e.2 with nru := false }) else e)
  else h1

/-- The value a line has at its home: a table of the foundation row (R244), or eviction buffer, hearth, then stack (R349); unspecified
wherever it stands (R265). -/
def State.homeValue (s : State) (k sl : Nat) : LineData × Bool :=
  let x := s.ks k
  if s.unspecAt k sl then s.stackLine k sl
  else if let some d := s.tableAt k sl then (d, false)
  else match x.evq.find? (fun e => e.1 == sl) with
  | some e => e.2
  | none =>
    match tblFind x.hearth sl with
    | some h => (h.data, h.poison)
    | none => s.stackLine k sl

/-- Whether a home read of a line hits (R349). -/
def State.homeHit (s : State) (k sl : Nat) : Bool :=
  let x := s.ks k
  x.evq.any (fun e => e.1 == sl) || (tblFind x.hearth sl).isSome

/-- A home write (R349): a present line is updated and dirty; a miss goes to the memory port. -/
def State.homeWrite (s : State) (k sl : Nat) (d : LineData) (p : Bool) : State :=
  let x := s.ks k
  if x.evq.any (fun e => e.1 == sl) then
    s.modKs k (fun x => { x with evq := x.evq.map (fun e => if e.1 = sl then (sl, d, p) else e) })
  else
    match tblFind x.hearth sl with
    | some h => s.modKs k (fun x => { x with hearth := hearthTouch (tblSet x.hearth sl { h with data := d, poison := p, dirty := true }) sl })
    | none => (s.stackWrite k sl d p).modKs k (fun x => { x with wrq := x.wrq ++ [sl] })

/-- Start of a home read: a hit answers at once; a miss opens an RD at the controller (R349, R534). -/
def State.memFetch (s : State) (k sl : Nat) : Option (LineData × Bool) × State :=
  if s.homeHit k sl then
    (some (s.homeValue k sl), (s.bump64 (aKs k 0x8010) 1).modKs k (fun x => { x with hearth := hearthTouch x.hearth sl }))
  else (none, (s.bump64 (aKs k 0x8018) 1).modKs k (fun x => { x with rdq := x.rdq ++ [sl] }))

/-- The way a clean fill takes (R350): an invalid way, a clean way with NRU 0, a dirty way with NRU 0. -/
def hearthWay (h : Tbl HLine) (sl : Nat) : Option (Nat × Option (Nat × HLine)) :=
  let set := h.filter (fun e => hearthSet e.1 == hearthSet sl)
  let at? (w : Nat) := set.find? (fun e => e.2.way == w)
  match (List.range 16).find? (fun w => (at? w).isNone) with
  | some w => some (w, none)
  | none =>
    match (List.range 16).find? (fun w => match at? w with | some e => !e.2.nru && !e.2.dirty | none => false) with
    | some w => some (w, at? w)
    | none =>
      match (List.range 16).find? (fun w => match at? w with | some e => !e.2.nru | none => false) with
      | some w => some (w, at? w)
      | none => none

/-- Whether INSTALL excludes a clean fill (Table 14.6): policy 1 takes reads that do not grant X or D. -/
def State.installs (s : State) (k : Nat) (grantsXD : Bool) : Bool :=
  match s.fld (aKs k 0x8000) 4 2 with
  | 0 => true
  | 2 => false
  | _ => !grantsXD

/-- A clean fill offered to the hearth (R350, R351). -/
def State.hearthFill (s : State) (k sl : Nat) (d : LineData) (p grantsXD : Bool) : State :=
  let x := s.ks k
  if x.hst ≠ .enabled then s
  else
    let decline := s.bump64 (aKs k 0x8020) 1
    if !s.installs k grantsXD || decide (64 ≤ x.evq.length) then decline
    else match hearthWay x.hearth sl with
    | none => decline
    | some (w, none) => s.modKs k (fun x => { x with hearth := hearthTouch (tblSet x.hearth sl ⟨d, p, false, true, w⟩) sl })
    | some (w, some (vsl, v)) =>
      if v.dirty then
        if s.fld (aKs k 0x8000) 8 6 ≤ x.evq.length then decline
        else s.modKs k (fun x =>
          { x with evq := x.evq ++ [(vsl, v.data, v.poison)],
                   hearth := hearthTouch (tblSet (tblDel x.hearth vsl) sl ⟨d, p, false, true, w⟩) sl })
      else s.modKs k (fun x => { x with hearth := hearthTouch (tblSet (tblDel x.hearth vsl) sl ⟨d, p, false, true, w⟩) sl })

/-! ## Directory -/

/-- A stable home state (Table 11.4). -/
inductive HomeSt where
  | hi
  | hs (relay : Option Nat) (vec : BitVec 25)
  | he (owner : Nat)
  | hr (vec : BitVec 25)
  deriving DecidableEq, Repr

/-- The stable state of a line at its home. -/
def Ks.homeSt (x : Ks) (sl : Nat) : HomeSt :=
  match tblFind x.dir sl with
  | some e => (match e.st with | .hs r v => .hs r v | .he o => .he o)
  | none => (match tblFind x.regions (sl / 64) with | some r => .hr r.vec | none => .hi)

/-- The open transaction on a line. -/
def Ks.txnOn (x : Ks) (sl : Nat) : Option Txn := x.txns.find? (fun t => t.sla == sl)

/-- Whether a transaction is the only one on all 64 lines of its granule: a region invalidation (R273), or a read that will make the
region entry (R275). -/
def Txn.wholeGran (t : Txn) : Bool := t.phase == .rinv || t.kind == .regionEvict || t.region

/-- Whether a line is closed to a new internal transaction: one is open on it, or on its granule (R273). -/
def Ks.closed (x : Ks) (sl : Nat) : Bool := x.txns.any (fun t => t.sla == sl || (t.sla / 64 == sl / 64 && t.wholeGran))

/-- Whether a line is closed to a request: as for an internal transaction, and while one is to be opened on it or on its granule. -/
def Ks.busy (x : Ks) (sl : Nat) : Bool := x.closed sl || x.jobs.any (fun j => j.sl == if j.gran then sl / 64 else sl)

/-- Whether any transaction is open in a granule. -/
def Ks.granBusy (x : Ks) (g : Nat) : Bool := x.txns.any (fun t => t.sla / 64 == g)

/-- Ways of a line set in use: by entries, by transactions that will make an entry, and reserved (R294). -/
def Ks.waysUsed (x : Ks) (set : Nat) : List Nat :=
  ((x.dir.filter (fun e => dirSet e.1 == set)).map (fun e => e.2.way)) ++
  ((x.txns.filter (fun t => dirSet t.sla == set)).filterMap (fun t => t.way)) ++
  ((x.resv.filter (fun r => r.1 == set)).map (fun r => r.2.1))

/-- The lowest free way of a line set. -/
def Ks.freeWay (x : Ks) (set : Nat) : Option Nat := (List.range 16).find? (fun w => !(x.waysUsed set).contains w)

/-- The victim class of an entry (R296). -/
def dirClass : DirSt → Nat
  | .hs none _ => 0
  | .hs (some _) _ => 1
  | .he o => if isHostAid o then 3 else 2

/-- Whether an entry is eligible as a victim (R296). -/
def Ks.eligible (x : Ks) (sl : Nat) (e : DirEnt) : Bool :=
  (x.txnOn sl).isNone && !x.resv.any (fun r => r.1 == dirSet sl && r.2.1 == e.way) &&
  !x.txns.any (fun t => t.evict == some sl)

/-- The victim of a line set (R296): the first class that has an eligible member, the first way at or after the set's pointer. -/
def Ks.victim (x : Ks) (set : Nat) : Option (Nat × DirEnt) :=
  let c := x.dir.filter (fun e => dirSet e.1 == set && x.eligible e.1 e.2)
  let p := tblGet x.ptr 0 set
  let pick (cl : Nat) : Option (Nat × DirEnt) :=
    let cc := c.filter (fun e => dirClass e.2.st == cl)
    match ((List.range 16).map (fun i => (p + i) % 16)).find? (fun w => cc.any (fun e => e.2.way == w)) with
    | some w => cc.find? (fun e => e.2.way == w)
    | none => none
  (((pick 0).or (pick 1)).or (pick 2)).or (pick 3)

/-- A line's entry set or freed. -/
def Ks.setDir (x : Ks) (sl line : Nat) (way : Nat) (st : DirSt) : Ks := { x with dir := tblSet x.dir sl ⟨line, st, way⟩ }
def Ks.freeDir (x : Ks) (sl : Nat) : Ks := { x with dir := tblDel x.dir sl }

/-- An open transaction replaced. -/
def Ks.setTxn (x : Ks) (sl : Nat) (f : Txn → Txn) : Ks :=
  { x with txns := x.txns.map (fun t => if t.sla = sl then f t else t) }

/-! ## Home-held reservations (R370 to R373) -/

/-- The granule in effect, as log2 of lines (Table 15.3). -/
def State.granLog (s : State) : Nat := if s.fld 0x2C000 8 2 = 1 then 0 else s.fld 0x2C004 0 3

/-- The end of every home-held reservation on the granule of a line (Table 15.4). -/
def State.killResvs (s : State) (k line : Nat) : State :=
  let g := 2 ^ s.granLog
  s.modKs k (fun x => { x with resvs := x.resvs.filter (fun e => e.2 / 64 / g ≠ line / g) })

/-- Whether an agent holds a reservation that covers a line at home k. -/
def State.resvHeld (s : State) (k aid line : Nat) : Bool :=
  match tblFind (s.ks k).resvs aid with
  | some a => a / 64 / 2 ^ s.granLog == line / 2 ^ s.granLog
  | none => false

/-! ## Admission -/

/-- A snoop of the home to an agent, for a transaction. -/
def snoopMsg (kd : MsgKind) (k : Nat) (t : Txn) (a : Nat) : Msg :=
  { kind := kd, aid := a, home := k, line := t.line, tag := t.req.tag, other := t.req.aid, near := t.near }

/-- Send one kind of snoop to several agents and wait for their answers. -/
def State.snoop (s : State) (k : Nat) (t : Txn) (kd : MsgKind) (as : List Nat) : Txn × State :=
  ({ t with wait := t.wait ++ as }, as.foldl (fun s a => s.send (snoopMsg kd k t a)) s)

/-- Send the region invalidation of a granule: SnpInvG to crucibles, and 16 4-line blocks to each host domain (R279). -/
def State.snoopG (s : State) (k : Nat) (t : Txn) (crus hosts : List Nat) : Txn × State :=
  let (t1, s1) := s.snoop k t .snpInvG crus
  let bs := hosts.flatMap (fun h => (List.range 16).map (fun i => (h, i)))
  ({ t1 with blocks := t1.blocks ++ bs },
   bs.foldl (fun s b => s.send { snoopMsg .snpInvG k t b.1 with line := t.line / 64 * 64 + 4 * b.2 }) s1)

/-- Targets of "invalidate" for a line in HS (R284): the crucibles of VEC's groups and the relay, and the attached hosts; the
requester is left out, except by a Ram (R324). -/
def State.invTargets (s : State) (relay : Option Nat) (vec : BitVec 25) (r : Nat) (incl : Bool) : List Nat :=
  let rel := match relay with
    | some a => if s.snooped a then [a] else []
    | none => []
  ((s.vecCrus vec ++ rel).eraseDups ++ s.vecHosts vec).filter (fun a => incl || a != r)

/-- Whether a RdS in HS is served by the relay (R278). -/
def relayServes (k : Nat) (near : Bool) (relay : Option Nat) (r : Nat) : Option Nat :=
  match relay with
  | some a => if near && a != r && hops (siteAid a) (siteAid r) < hops (siteKs k) (siteAid r) then some a else none
  | none => none

/-- Whether the home records R as covered (R284): its Upg is then granted without data. -/
def upgCovered (st : HomeSt) (r : Nat) : Bool :=
  match st with
  | .hs relay vec => relay == some r || vecHas vec r
  | _ => false

/-- Whether a request at a line leaves a new line entry (R292). -/
def needsEntry (st : HomeSt) (kd : MsgKind) : Bool :=
  st == .hi && (kd == .rds || kd == .rdx || kd == .upg)

/-- Whether a request in HR needs the region invalidation (R279). -/
def needsRinv (st : HomeSt) (kd : MsgKind) : Bool :=
  match st with
  | .hr _ => !(kd == .rds || kd == .rdc)
  | _ => false

/-- Whether a request's result uses the line's value at the home. -/
def usesValue : MsgKind → Bool
  | .rds | .rdx | .rdc | .wrp | .ram => true
  | _ => false

/-- The start of a transaction's own row of Table 11.7: its snoops and its memory read. -/
def State.txnMain (s : State) (k : Nat) (t0 : Txn) : State :=
  let st := (s.ks k).homeSt t0.sla
  let r := t0.req.aid
  let kd := if t0.req.kind = .upg ∧ !upgCovered st r then .rdx else t0.req.kind
  let t := { t0 with phase := .main, req := { t0.req with kind := kd } }
  let put (t : Txn) (s : State) : State := s.modKs k (fun x => x.setTxn t.sla (fun _ => t))
  let fetch (t : Txn) (s : State) : State :=
    let (v, s1) := s.memFetch k t.sla
    put { t with mem := v, memPend := v.isNone } s1
  let inv (relay : Option Nat) (vec : BitVec 25) : Txn × State := s.snoop k t .snpInv (s.invTargets relay vec r (kd == .ram))
  match st with
  | .hi | .hr _ => if usesValue kd then fetch t s else put t s
  | .hs relay vec =>
    (match kd with
    | .rds =>
      (match relayServes k t.near relay r with
      | some a => let (t1, s1) := s.snoop k { t with snp := some .snpFwdS } .snpFwdS [a]; put t1 s1
      | none => fetch t s)
    | .rdc => fetch t s
    | .rdx | .wrp | .ram => let (t1, s1) := inv relay vec; fetch t1 s1
    | .upg | .wrf => let (t1, s1) := inv relay vec; put t1 s1
    | _ => put t s)
  | .he o =>
    if o = r ∧ kd ≠ .ram then (if usesValue kd then fetch t s else put t s)
    else if isHostAid o then
      (match kd with
      | .rds => let (t1, s1) := s.snoop k t .snpFwdS [o]; fetch t1 s1
      | .rdc => let (t1, s1) := s.snoop k { t with snp := some .snpCur } (if t.req.resv then .snpInv else .snpCur) [o]; fetch t1 s1
      | .rdx | .wrp | .ram => let (t1, s1) := s.snoop k t .snpInv [o]; fetch t1 s1
      | .wrf => let (t1, s1) := s.snoop k t .snpInv [o]; put t1 s1
      | _ => put t s)
    else
      let fw (m : MsgKind) : State :=
        let (t1, s1) := s.snoop k { t with snp := some m } m [o]
        put t1 s1
      (match kd with
      | .rds => fw .snpFwdS
      | .rdx => fw .snpFwdX
      | .rdc => if t.req.resv then (let (t1, s1) := s.snoop k t .snpGetI [o]; fetch t1 s1) else fw .snpCur
      | .wrf => let (t1, s1) := s.snoop k t .snpInv [o]; put t1 s1
      | .wrp | .ram => let (t1, s1) := s.snoop k t .snpGetI [o]; fetch t1 s1
      | _ => put t s)

/-- A line written with the poison mark (R313). -/
def State.poisonMark (s : State) (k sl : Nat) : State := (s.homeWrite k sl (s.homeValue k sl).1 true).bump64 (aKs k 0x4038) 1

/-- A line written with the poison mark and its entry freed (R313). -/
def State.poisonLine (s : State) (k sl : Nat) : State := (s.poisonMark k sl).modKs k (·.freeDir sl)

/-- Open a transaction and start it: a dead owner first, whose entry's way a request that needs one takes over (R314), then a region
invalidation (R279), then its own row. -/
def State.txnStart (s : State) (k : Nat) (t : Txn) : State :=
  let x := s.ks k
  let opens (t : Txn) (s : State) : State := s.modKs k (fun x => { x with txns := x.txns ++ [t] })
  match x.homeSt t.sla with
  | .he o =>
    if s.dead.contains o && o != t.req.aid then
      let t0 : Txn := if needsEntry .hi t.req.kind then { t with way := (tblFind x.dir t.sla).map (·.way) } else t
      if isHostAid o || x.tagFail.contains o then (opens t0 (s.poisonLine k t.sla)).txnMain k t0
      else (opens { t0 with phase := .tagq, wait := [o] } s).send (snoopMsg .tagQ k t o)
    else (opens t s).txnMain k t
  | .hr vec =>
    if needsRinv (.hr vec) t.req.kind || t.kind = .regionEvict then
      let (t1, s1) := s.snoopG k { t with phase := .rinv } (s.vecCrus vec) (s.vecHosts vec)
      (opens t1 s1).bump64 (aKs k 0x4018) 1
    else (opens t s).txnMain k t
  | _ => (opens t s).txnMain k t

/-- The eviction of a line entry as an internal transaction (R297, Table 12.1). -/
def State.evictStart (s : State) (k sl : Nat) (e : DirEnt) (leave : Option Bool := none) : State :=
  let t : Txn := { line := e.line, sla := sl, kind := .evict, phase := .main, leave := leave, way := some e.way,
                   req := { kind := .wrf, aid := 0x1FF, home := k, line := e.line } }
  let s0 := if leave.isSome then s else s.modKs k (fun x => { x with ptr := tblSet x.ptr (dirSet sl) ((e.way + 1) % 16) })
  let go (kd : MsgKind) (as : List Nat) : State :=
    let (t1, s1) := s0.snoop k t kd as
    s1.modKs k (fun x => { x with txns := x.txns ++ [t1] })
  match e.st with
  | .hs relay vec => go .snpInv (s.invTargets relay vec 0x1FF true)
  | .he o =>
    if s.dead.contains o then
      if isHostAid o || (s.ks k).tagFail.contains o then
        (s0.poisonLine k sl).modKs k (fun x => { x with txns := x.txns ++ [t] })
      else (s0.modKs k (fun x => { x with txns := x.txns ++ [{ t with phase := .tagq, wait := [o] }] })).send (snoopMsg .tagQ k t o)
    else go (if isHostAid o then .snpInv else .snpGetI) [o]

/-- Whether a RdS in HI allocates a region entry (R279, R299): RSHARE, and no line entry in the granule, nor one that an open transaction
will make. -/
def State.allocRegion (s : State) (k sl line : Nat) (kd : MsgKind) : Bool :=
  let x := s.ks k
  kd == .rds && s.rshare line && !x.dir.any (fun e => e.1 / 64 == sl / 64) &&
  !x.txns.any (fun t => t.sla / 64 == sl / 64 && t.kind == .client && t.way.isSome)

/-- The region entry a full region set evicts (R299): the first on whose granule no region invalidation is open or to be opened (log
entry 14). -/
def Ks.regionVictim (x : Ks) (g : Nat) : Option (Nat × RegEnt) :=
  x.regions.find? (fun e => regSet e.1 == regSet g && !x.txns.any (fun t => t.sla / 64 == e.1 && t.phase == .rinv) &&
    !x.jobs.any (fun j => j.gran && j.sl == e.1))

/-- Regions of a set in use, with those a transaction will make. -/
def Ks.regionsUsed (x : Ks) (g : Nat) : Nat :=
  x.regions.countP (fun e => regSet e.1 == regSet g) + x.txns.countP (fun t => t.region && regSet (t.sla / 64) == regSet g)

/-- Retry: the request enters the retry list and its credit returns (R292 to R294). -/
def State.retryReq (s : State) (k : Nat) (m : Msg) : State :=
  ((s.modKs k (fun x => { x with retry := x.retry ++ [m] })).bump64 (aKs k 0x4030) 1).send { m with kind := .retry }

/-- A write-back or clean eviction outside any open snoop (Table 11.7): from the owner or relay the home records, or stale (R304). -/
def State.writeBack (s : State) (k sl : Nat) (m : Msg) : State :=
  let x := s.ks k
  let cmp (s : State) : State := s.send { m with kind := .cmp }
  let stale := (cmp (s.bump32 (aKs k 0x4040) 1)).raiseAt 12 (unitKs k)
  match m.kind, x.homeSt sl with
  | .wbd, .he o => if o = m.aid then cmp ((s.homeWrite k sl m.data m.poison).modKs k (·.freeDir sl)) else stale
  | .wbk, .he o => if o = m.aid then cmp (s.homeWrite k sl m.data m.poison) else stale
  | .evc, .he o => if o = m.aid then cmp (s.modKs k (·.freeDir sl)) else stale
  | .evc, .hs (some a) vec =>
    if a = m.aid then
      cmp (s.modKs k (fun x => match tblFind x.dir sl with
        | some e => x.setDir sl e.line e.way (.hs none vec)
        | none => x))
    else stale
  | _, _ => stale

/-- A home-held STCOND whose reservation does not hold at admission writes nothing (R372). -/
def State.condFails (s : State) (k : Nat) (m : Msg) : Bool := m.kind == .wrp && m.resv && !s.resvHeld k m.aid m.line

/-- The gate's own answer to a request of a host domain (R252, R309, R514): a read gets zeros with the poison bit, a write or a message
without data completes. -/
def State.gateReply (s : State) (m : Msg) : State :=
  let r (k : MsgKind) (p : Bool) : Msg := { kind := k, aid := m.aid, home := 0, line := m.line, tag := m.tag, poison := p }
  match m.kind with
  | .wrf | .wrp | .wbd | .wbk | .evc | .upg => s.send (r .cmp false)
  | _ => s.send (r .dataC true)

/-- A request of a host domain for a block that it does not hold (R252). -/
def State.ungranted (s : State) (m : Msg) : State :=
  ((s.gateReply m).bump64 0x24010 1).raise { src := 16, unit := unitHd (m.aid - 0x100), param := 64 * m.line }

/-- The request of a host domain is judged on the holders at its admission (R251, R252). -/
def State.unheld (s : State) (m : Msg) : Bool := isHostAid m.aid && !s.holds (m.aid - 0x100) (blockOf (64 * m.line))

/-- Whether the admission of a request finds what it needs: an eviction for it finds an entry in the tracker (R290). -/
def State.canTake (s : State) (k sl : Nat) (m : Msg) (way : Option Nat) : Bool :=
  s.internalRoom k || way.isSome || !needsEntry ((s.ks k).homeSt sl) m.kind || ((s.ks k).freeWay (dirSet sl)).isSome

/-- The admission of a request (R251, R272, R284, R292, R293, R298, R299). `way` is the way reserved for it by an RGrant, which the
admission uses up. -/
def State.takeIn (s : State) (k sl : Nat) (m : Msg) (way : Option Nat) : State :=
  let x := s.ks k
  let st := x.homeSt sl
  let sw := match way with
    | some w => s.modKs k (fun x => { x with resv := x.resv.filter (fun r => !(r.1 == dirSet sl && r.2.1 == w)) })
    | none => s
  if s.unheld m then sw.ungranted m
  else if m.kind = .wbd ∨ m.kind = .wbk ∨ m.kind = .evc then sw.writeBack k sl m
  else if s.condFails k m then
    (sw.modKs k (fun x => { x with resvs := tblDel x.resvs m.aid })).send { m with kind := .cmp, ok := false }
  else
    let s0 := if m.kind = .rdx ∨ m.kind = .upg ∨ m.kind = .wrf ∨ m.kind = .wrp ∨ m.kind = .ram then sw.killResvs k m.line else sw
    let t : Txn := { line := m.line, sla := sl, kind := .client, phase := .main, req := m, near := s.srcNearest m.line }
    if needsEntry st m.kind then
      let full : Bool := 8 ≤ x.regionsUsed (sl / 64)
      let rv := x.regionVictim (sl / 64)
      if s.allocRegion k sl m.line m.kind && (!full || rv.isSome) then
        (match (if full then rv else none) with
        | some (g, _) =>
          (s0.modKs k (fun x => { x with jobs := x.jobs ++ [⟨true, g, .evict⟩] })).txnStart k { t with region := true, evictReg := some g }
        | none => s0.txnStart k { t with region := true })
      else
        (match way with
        | some w => s0.txnStart k { t with way := some w }
        | none =>
          if x.retry.any (fun r => match s.homeOf r.line with | some (_, sr) => dirSet sr == dirSet sl | none => false) then s.retryReq k m
          else
            (match x.freeWay (dirSet sl), x.victim (dirSet sl) with
            | some w, _ => s0.txnStart k { t with way := some w }
            | none, some (vsl, e) => (s0.evictStart k vsl e).txnStart k { t with way := some e.way, evict := some vsl }
            | none, none => s.retryReq k m))
    else if needsRinv st m.kind then s0.txnStart k { t with way := way }
    else s0.txnStart k t

/-- A request goes on as in HI after a step that took its line's entry away (R279, R314). -/
def State.goOn (s : State) (k : Nat) (t : Txn) : State :=
  if !needsEntry .hi t.req.kind then s.txnStart k { t with phase := .main, wait := [], blocks := [] }
  else if s.canTake k t.sla t.req t.way then s.takeIn k t.sla t.req t.way
  else s.modKs k (fun x => { x with queue := t.req :: x.queue })

/-! ## Completion -/

/-- A response to the requester of a transaction. -/
def respMsg (kd : MsgKind) (k : Nat) (t : Txn) (v : LineData × Bool) : Msg :=
  { kind := kd, aid := t.req.aid, home := k, line := t.line, tag := t.req.tag, data := v.1, poison := v.2, op := t.req.op,
    resv := t.req.resv }

/-- Bytes of a line replaced under a mask (WrP, R281). -/
def mergeLine (old new : LineData) (mask : BitVec 64) : LineData :=
  (List.range 64).foldl (fun d i => if mask.getLsbD i then setBits d (8 * i) 8 (lineByte new i).toNat else d) old

/-- Whether a transaction has everything it waits for. -/
def Txn.ready (t : Txn) : Bool :=
  t.phase == .main && t.wait.isEmpty && t.wbp.isEmpty && t.dataWait.isEmpty && t.evict.isNone && t.evictReg.isNone && !t.memPend

/-- Whether a ready transaction still needs the home's value. -/
def Txn.wants (t : Txn) : Bool := usesValue t.req.kind && t.kind == .client && !t.fwd && t.dirty.isNone && t.mem.isNone

/-- Write the dirty data a snoop returned, when there is any. -/
def State.writeDirty (s : State) (k : Nat) (t : Txn) : State :=
  match t.dirty with
  | some (d, p) => s.homeWrite k t.sla d p
  | none => s

/-- The Ram of a transaction on the line's value (R321, R322, R327). -/
def State.ramApply (s : State) (k : Nat) (t : Txn) (v : LineData × Bool) : State :=
  let poisoned (s : State) : State := (s.bump32 (aKs k 0x4058) 1).raiseAt 13 (unitKs k)
  if v.2 then poisoned (s.writeDirty k t)
  else if t.req.poison then poisoned (s.homeWrite k t.sla v.1 true)
  else
    let (d, nan) := ramCombine t.req.op.toNat v.1 t.req.data
    let s1 := (s.homeWrite k t.sla d false).bump64 (aKs k 0x4050) 1
    if nan then s1.bump32 (aKs k 0x405C) 1 else s1

/-- A write that its home does not perform any more (R366, R514): whether its bytes hold the old value or the stored data is a free choice
(log entry 1). -/
def State.deadWrite (s : State) (m : Msg) : State :=
  match s.homeOf m.line with
  | none => s
  | some (k, sl) =>
    let v := s.homeValue k sl
    let (b, s1) := s.takeBool
    if !b then s1
    else match m.kind with
      | .wrf | .wbd | .wbk => s1.homeWrite k sl m.data m.poison
      | .wrp => s1.homeWrite k sl (mergeLine v.1 m.data m.mask) v.2
      | .ram => s1.ramApply k { line := m.line, sla := sl, kind := .client, phase := .main, req := m } v
      | _ => s1

/-- The new directory state and the response of a client transaction that is ready (Tables 11.7 and 12.3). -/
def State.txnFinish (s : State) (k : Nat) (t : Txn) : State :=
  let x := s.ks k
  let st := x.homeSt t.sla
  let r := t.req.aid
  let deadR := s.dead.contains r || t.gone
  let v := (t.dirty.or t.mem).getD (s.homeValue k t.sla)
  let w := match tblFind x.dir t.sla with | some e => e.way | none => t.way.getD 0
  let dir (d : DirSt) (s : State) : State := s.modKs k (·.setDir t.sla t.line w d)
  let free (s : State) : State := s.modKs k (·.freeDir t.sla)
  let resp (kd : MsgKind) (s : State) : State := if deadR || (0x180 ≤ r && kd != .dataC) then s else s.send (respMsg kd k t v)
  let base := s.modKs k (fun x => { x with txns := x.txns.filter (fun u => u.sla != t.sla) })
  let addV (vec : BitVec 25) : BitVec 25 := if deadR then vec else vecAdd vec r
  match t.req.kind with
  | .rds =>
    (match st with
    | .hr vec => resp .dataS (base.modKs k (fun x => { x with regions := tblSet x.regions (t.sla / 64) ⟨t.line / 64, addV vec⟩ }))
    | .hi =>
      if t.region then resp .dataS (base.modKs k (fun x => { x with regions := tblSet x.regions (t.sla / 64) ⟨t.line / 64, addV 0⟩ }))
      else if deadR then base
      else if isHostAid r then resp .dataS (dir (.hs none (vecAdd 0 r)) base)
      else resp .dataX (dir (.he r) base)
    | .hs relay vec =>
      let relay' := match relay with
        | some a => if t.wbKind = some .evc ∧ t.snp = some .snpFwdS then none else some a
        | none => none
      let b1 := base.writeDirty k t
      if t.fwd then (dir (.hs relay' (addV vec)) b1).bump64 (aKs k 0x4020) 1
      else if t.near && relay'.isNone && isCruAid r && !deadR then resp .dataL (dir (.hs (some r) (addV vec)) b1)
      else resp .dataS (dir (.hs relay' (addV vec)) b1)
    | .he o =>
      let b1 := base.writeDirty k t
      if o = r then (if isHostAid r then resp .dataS (dir (.hs none (addV 0)) b1) else resp .dataX (dir (.he r) b1))
      else if t.fwd then
        (dir (.hs (if t.ack = .l then some o else none) (addV (if t.ack = .s ∨ t.ack = .l then vecAdd 0 o else 0))) b1).bump64 (aKs k 0x4028) 1
      else if t.wbKind = some .wbk ∧ isCruAid o then
        resp .dataS (dir (.hs (if t.near then some o else none) (addV (vecAdd 0 o))) b1)
      else resp .dataS (dir (.hs none (addV (if t.ack = .s then vecAdd 0 o else 0))) b1))
  | .rdx =>
    let b1 := if t.fwd then base else base.writeDirty k t
    if t.fwd then (if deadR then b1.poisonLine k t.sla else dir (.he r) b1).bump64 (aKs k 0x4028) 1
    else if deadR then free b1
    else resp .dataX (dir (.he r) b1)
  | .upg => if deadR then free base else resp .cmpX (dir (.he r) base)
  | .rdc =>
    let b1 := base.writeDirty k t
    let b2 := if t.req.resv && !deadR then (b1.endResvs r).modKs k (fun x => { x with resvs := tblSet x.resvs r (64 * t.line) }) else b1
    let b3 := match st with
      | .he _ =>
        if t.req.resv || t.reclaimed || t.wbKind == some .wbd || t.wbKind == some .evc then free b2 else b2
      | _ => b2
    if t.fwd then b3.bump64 (aKs k 0x4028) 1 else resp .dataC b3
  | .wrf => resp .cmp (free (base.homeWrite k t.sla t.req.data t.req.poison))
  | .wrp =>
    let b1 := base.homeWrite k t.sla (mergeLine v.1 t.req.data t.req.mask) (v.2 && t.req.mask != BitVec.allOnes 64 || t.req.poison)
    resp .cmp (free (if t.req.resv then b1.modKs k (fun x => { x with resvs := tblDel x.resvs r }) else b1))
  | .ram => resp .cmp (free (base.ramApply k t v))
  | _ => base

/-- An eviction or a region eviction closes: its entry is freed, and the transaction that waits for the way takes it, or its listed
request is sent RGrant (R297 to R299, R294). Data taken back from the last holder of an extent is discarded (R256). -/
def State.evictFinish (s : State) (k : Nat) (t : Txn) : State :=
  let s1 := (if t.leave = some true then s else s.writeDirty k t).modKs k (fun x =>
    { (if t.kind = .evict then x.freeDir t.sla else { x with regions := tblDel x.regions (t.sla / 64) }) with
      txns := (x.txns.filter (fun u => u.sla != t.sla)).map (fun u =>
        if t.kind = .evict ∧ u.evict = some t.sla then { u with evict := none }
        else if t.kind = .regionEvict ∧ u.evictReg = some (t.sla / 64) then { u with evictReg := none } else u) })
  let s2 := if t.leave.isSome then s1 else s1.bump64 (aKs k 0x4010) 1
  match (s2.ks k).resv.find? (fun r => t.kind == .evict && r.1 == dirSet t.sla && some r.2.1 == t.way) with
  | some r => s2.send { r.2.2 with kind := .rgrant }
  | none => s2

/-- A region invalidation of a client transaction closes: its region entry is freed and the request goes on as in HI (R279). -/
def State.rinvFinish (s : State) (k : Nat) (t : Txn) : State :=
  let s1 := s.modKs k (fun x => { x with regions := tblDel x.regions (t.sla / 64), txns := x.txns.filter (fun u => u.sla != t.sla) })
  s1.goOn k t

/-- Requesters to whom a way is given by an RGrant not yet used (R294). -/
def Ks.grants (x : Ks) : List Nat := x.resv.map (fun r => creditKey r.2.2.aid)

/-- The oldest listed request that can be given a way, with the way: a free one, or an eligible victim (R294). -/
def State.retryPick (s : State) (k : Nat) : Option (Msg × Nat × Option (Nat × DirEnt)) :=
  let x := s.ks k
  x.retry.findSome? (fun m =>
    match s.homeOf m.line with
    | none => none
    | some (_, sl) =>
      if x.grants.contains (creditKey m.aid) then none
      else
        match x.freeWay (dirSet sl), x.victim (dirSet sl) with
        | some w, _ => some (m, w, none)
        | none, some (vsl, e) => if s.internalRoom k then some (m, e.way, some (vsl, e)) else none
        | none, none => none)

/-- A transaction of a release sweep closes (R478 step 3): dirty data is written unpoisoned; the owner's entry or the region entry is
freed, and of a shared line's VEC the host groups of head `t.req.tag` are cleared. -/
def State.releaseFinish (s : State) (k : Nat) (t : Txn) : State :=
  let g := t.req.tag
  (s.writeDirty k t).modKs k (fun x0 =>
    let x := { x0 with txns := x0.txns.filter (fun u => u.sla != t.sla) }
    if t.phase = .rinv then { x with regions := tblDel x.regions (t.sla / 64) }
    else
      match tblFind x.dir t.sla with
      | some e =>
        (match e.st with
        | .he _ => x.freeDir t.sla
        | .hs r v => x.setDir t.sla e.line e.way (.hs r (v &&& ~~~(BitVec.ofNat 25 (3 * 2 ^ (2 * g))))))
      | none => x)

/-- An internal transaction of its own is opened on a line or a granule; `none` where nothing is left to do there (R256, R259, R299,
R515). -/
def State.jobStart (s : State) (k : Nat) (j : HomeJob) : State :=
  let x := s.ks k
  let txn (line : Nat) (kd : TxKind) (ph : TxPhase) (leave : Option Bool) : Txn :=
    { line := line, sla := if j.gran then 64 * j.sl else j.sl, kind := kd, phase := ph, leave := leave,
      req := { kind := .wrf, aid := 0x1FF, home := k, line := line } }
  let opens (t : Txn × State) : State := t.2.modKs k (fun x => { x with txns := x.txns ++ [t.1] })
  let all : List Nat := (buildCrus s.build).filter (fun n => s.snooped n)
  if j.gran then
    match tblFind x.regions j.sl with
    | none => s.modKs k (fun x => { x with txns := x.txns.map (fun u => if u.evictReg = some j.sl then { u with evictReg := none } else u) })
    | some e =>
      let t (kd : TxKind) (leave : Option Bool) : Txn := txn (e.gran * 64) kd .rinv leave
      match j.why with
      | .evict => s.txnStart k (t .regionEvict none)
      | .purge => s.txnStart k (t .regionEvict (some true))
      | .dirUe => (opens (s.snoopG k (t .regionEvict (some false)) all (s.attached.map aidHd))).bump64 (aKs k 0x4018) 1
      | .leave h _ => if vecHas e.vec (aidHd h) && s.attached.contains h then opens (s.snoopG k (t .tell none) [] [aidHd h]) else s
  else
    match tblFind x.dir j.sl with
    | none => s
    | some e =>
      match j.why, e.st with
      | .leave h last, .he o => if o = aidHd h then s.evictStart k j.sl e (some last) else s
      | .leave h _, .hs _ vec =>
        if vecHas vec (aidHd h) && s.attached.contains h then opens (s.snoop k (txn e.line .tell .main none) .snpInv [aidHd h]) else s
      | .dirUe, _ =>
        let (t1, s1) := s.snoop k { txn e.line .evict .main (some false) with way := some e.way } .snpGetI all
        opens (s1.snoop k t1 .snpInv (s.attached.map aidHd))
      | _, _ => s.evictStart k j.sl e (some true)

/-- The first internal transaction of its own that a home can open: nothing is open on its line or granule, and the tracker has an
entry (R273, R290). -/
def State.jobNext (s : State) (k : Nat) : Option HomeJob :=
  let x := s.ks k
  if !s.internalRoom k then none else x.jobs.find? (fun j => if j.gran then !x.granBusy j.sl else !x.closed j.sl)

/-- One internal step of a home, when one can be taken: a transaction closes, an internal one opens, a waiting request is admitted, or a
retried request is given a way. -/
def State.homeStep (s : State) (k : Nat) : Option State :=
  let x := s.ks k
  match x.txns.find? (fun t => (t.phase == .rinv && t.wait.isEmpty && t.blocks.isEmpty) || t.ready) with
  | some t =>
    some (
      if t.kind = .evict ∨ t.kind = .regionEvict then s.evictFinish k t
      else if t.kind = .release then s.releaseFinish k t
      else if t.kind = .reclaim ∨ t.kind = .tell then s.modKs k (fun x => { x with txns := x.txns.filter (fun u => u.sla != t.sla) })
      else if t.phase = .rinv then s.rinvFinish k t
      else if t.wants then
        let (v, s1) := s.memFetch k t.sla
        s1.modKs k (fun x => x.setTxn t.sla (fun t => { t with mem := v, memPend := v.isNone }))
      else s.txnFinish k t)
  | none =>
    match s.jobNext k with
    | some j => some ((s.modKs k (fun x => { x with jobs := x.jobs.erase j })).jobStart k j)
    | none =>
    let way (m : Msg) : Option Nat := (x.resv.find? (fun r => r.2.2 == m)).map (fun r => r.2.1)
    match x.queue.find? (fun m => match s.homeOf m.line with
        | some (_, sl) => !x.busy sl && !(needsRinv (x.homeSt sl) m.kind && x.granBusy (sl / 64)) && s.canTake k sl m (way m)
        | none => true) with
    | some m =>
      let s1 := s.modKs k (fun x => { x with queue := x.queue.erase m })
      some (match s.homeOf m.line with
        | some (_, sl) => s1.takeIn k sl m (way m)
        | none => s1)
    | none =>
      match s.retryPick k with
      | some (m, w, ev) =>
        let sl := match s.homeOf m.line with | some (_, sl) => sl | none => 0
        let s1 := s.modKs k (fun x => { x with retry := x.retry.erase m, resv := x.resv ++ [(dirSet sl, w, m)] })
        some (match ev with | some (vsl, e) => s1.evictStart k vsl e | none => s1.send { m with kind := .rgrant })
      | none => none

/-- The home's internal steps until none is left, at most `fuel` of them. -/
def State.settle (s : State) (k : Nat) : Nat → State
  | 0 => s
  | fuel + 1 =>
    match s.homeStep k with
    | some s1 => s1.settle k fuel
    | none => s

/-- Steps enough for every open transaction, waiting request and listed request to move on. A keystone admits none while its hearth
invalidates at power-up (R354), nor before its memory port is in service (Table 25.2 step 7). -/
def State.homeRun (s : State) (k : Nat) : State :=
  let x := s.ks k
  if x.hst = .invalidating ∨ x.stopped = true ∨ s.fld (aKs k 0xC000) 0 1 = 0 then s
  else s.settle k (4 * (x.txns.length + x.jobs.length + x.queue.length + x.retry.length) + 8)

/-- A request reaches its home (R272, R273, R303, R306, R311). -/
def State.homeReceive (s : State) (m : Msg) : State :=
  match s.homeOf m.line with
  | none => s
  | some (k, sl) =>
    if s.dead.contains m.aid || !s.keyUp k then s
    else if (s.ks k).stopped then s.deadWrite m
    else
      let x := s.ks k
      let isWb := m.kind == .wbd || m.kind == .wbk || m.kind == .evc
      match x.txnOn sl with
      | some t =>
        if isWb && (t.wait.contains m.aid || t.wbp.contains m.aid || (isHostAid m.aid && t.dataWait.contains m.aid)) then
          let data := if m.kind = .evc then t.dirty else some (m.data, m.poison)
          let t1 : Txn :=
            if isHostAid m.aid then { t with dirty := data, dataWait := t.dataWait.erase m.aid }
            else if t.wbp.contains m.aid then { t with wbp := t.wbp.erase m.aid, dirty := data, wbKind := some m.kind }
            else { t with wbSeen := t.wbSeen ++ [m.aid], dirty := data, wbKind := some m.kind }
          ((s.modKs k (fun x => x.setTxn sl (fun _ => t1))).send { m with kind := .cmp }).homeRun k
        else (s.modKs k (fun x => { x with queue := x.queue ++ [m] })).homeRun k
      | none => (s.modKs k (fun x => { x with queue := x.queue ++ [m] })).homeRun k

/-- A host's request on its way to its home: an access of the pool (R365), but for a clean eviction. -/
def State.hostIssue (s : State) (m : Msg) : State :=
  (if m.kind == .evc then s
   else s.issue { aid := m.aid, home := m.home, line := m.line, tag := m.tag,
                  store := m.kind == .wrf || m.kind == .wrp || m.kind == .wbd || m.kind == .wbk || m.kind == .upg }).homeReceive m

/-- A snoop answer reaches the home (R276, R297, R302, R303). `fwd` says that the snooped crucible sent the data itself. -/
def State.homeAck (s : State) (m : Msg) : State :=
  match s.homeOf m.line with
  | none => s
  | some (k, sl) =>
    if s.dead.contains m.aid then s
    else
      let b := (m.aid, sl % 64 / 4)
      match (s.ks k).txns.find? (fun t => (t.wait.contains m.aid && (t.sla == sl || (t.phase == .rinv && t.sla / 64 == sl / 64))) ||
          (t.blocks.contains b && t.sla / 64 == sl / 64)) with
      | none => s
      | some t =>
        let t1 : Txn :=
          if !t.wait.contains m.aid then { t with blocks := t.blocks.erase b }
          else if m.ack = .wbp then
            (if t.wbSeen.contains m.aid then { t with wait := t.wait.erase m.aid }
             else { t with wait := t.wait.erase m.aid, wbp := t.wbp ++ [m.aid] })
          else
            { t with wait := t.wait.erase m.aid, ack := if t.snp.isSome ∨ isHostAid m.aid then m.ack else t.ack,
                     fwd := t.fwd || (m.ok && t.snp.isSome && isCruAid m.aid),
                     dataWait := if m.dat && t.dirty.isNone then t.dataWait ++ [m.aid] else t.dataWait }
        (s.modKs k (fun x => x.setTxn t.sla (fun _ => t1))).homeRun k

/-- Dirty data of a snoop reaches the home (SnpData, R281). -/
def State.homeSnpData (s : State) (m : Msg) : State :=
  match s.homeOf m.line with
  | none => s
  | some (k, sl) =>
    if s.dead.contains m.aid then s
    else
      match (s.ks k).txnOn sl with
      | some t =>
        if t.wait.contains m.aid || t.dataWait.contains m.aid then
          (s.modKs k (fun x => x.setTxn sl (fun t =>
            { t with dirty := some (m.data, m.poison), dataWait := t.dataWait.erase m.aid }))).homeRun k
        else s
      | none => s

/-! ## Reclaim (R310 to R314) -/

/-- The answer to a TagQ, or its time limit: TagR X leaves the line current, unless the agent's tags have failed before; every other
answer poisons it. Of a TagQ as first step the line goes to HI (R314); an open snoop has its answer, SnpAck (I) (R313). -/
def State.reclaimAnswer (s : State) (k sl aid : Nat) (ans : AckState) : State :=
  match (s.ks k).txnOn sl with
  | none => s
  | some t =>
    if !t.wait.contains aid then s
    else
      let clean : Bool := ans == .x && !(s.ks k).tagFail.contains aid
      let s0 := if ans = .fail then s.modKs k (fun x => { x with tagFail := setIns x.tagFail aid }) else s
      let s1 := if clean then s0 else s0.poisonMark k sl
      let t1 := { t with wait := t.wait.erase aid, dataWait := t.dataWait.erase aid }
      (if t.phase = .tagq then
        let s2 := s1.modKs k (·.freeDir sl)
        if t.kind = .client then (s2.modKs k (fun x => { x with txns := x.txns.filter (fun u => u.sla != sl) })).goOn k t1
        else s2.modKs k (fun x => x.setTxn sl (fun _ => { t1 with phase := .main }))
      else s1.modKs k (fun x => x.setTxn sl (fun _ => { t1 with ack := .i, dirty := none, mem := none, memPend := false, reclaimed := true }))
      ).homeRun k

/-- An open transaction that ends with its requester (R311): one that waits for no answer and writes nothing. -/
def Txn.endsWith (t : Txn) (aid : Nat) : Bool :=
  t.kind == .client && t.req.aid == aid && t.wait.isEmpty && t.wbp.isEmpty && t.dataWait.isEmpty && t.blocks.isEmpty &&
  (t.req.kind == .rds || t.req.kind == .rdx || t.req.kind == .upg || t.req.kind == .rdc)

/-- What keystone k does when an agent is declared dead (R311, R312): its waiting requests end, and its open transactions, which collect
the answers they wait for and then give it nothing; snoops that wait for its answer are answered by reclaim; the sweep of its lines
starts, or is put off to the next sweep. -/
def State.ksDead (s : State) (k aid : Nat) : State :=
  let x := s.ks k
  let s0 := s.modKs k (fun x =>
    { x with txns := (x.txns.filter (fun t => !t.endsWith aid)).map (fun t => if t.req.aid = aid then { t with gone := true } else t),
             queue := x.queue.filter (fun m => m.aid != aid), retry := x.retry.filter (fun m => m.aid != aid),
             resv := x.resv.filter (fun r => r.2.2.aid != aid), resvs := tblDel x.resvs aid,
             nextSweep := if x.sweeping then setIns x.nextSweep aid else x.nextSweep,
             sweep := if x.sweeping then x.sweep else setIns x.sweep aid, sweeping := true })
  let s1 := (s0.ks k).txns.foldl (fun s t =>
    if t.wait.contains aid || t.wbp.contains aid || t.dataWait.contains aid || t.blocks.any (fun b => b.1 == aid) then
      let owner := match x.homeSt t.sla with | .he o => o == aid | _ => false
      if owner && isCruAid aid && !x.tagFail.contains aid then
        (s.modKs k (fun x => x.setTxn t.sla (fun t =>
          { t with wait := if t.wait.contains aid then t.wait else t.wait ++ [aid], wbp := t.wbp.erase aid }))).send (snoopMsg .tagQ k t aid)
      else
        let s' := if owner then s.poisonMark k t.sla else s
        s'.modKs k (fun x => x.setTxn t.sla (fun t =>
          let t1 := { t with wait := t.wait.erase aid, wbp := t.wbp.erase aid, dataWait := t.dataWait.erase aid, ack := .i,
                              blocks := t.blocks.filter (fun b => b.1 != aid) }
          if owner then { t1 with dirty := none, mem := none, memPend := false, reclaimed := true } else t1))
    else s) s0
  s1.homeRun k

/-- The sweep of keystone k over its entries for the agents it covers (R312, R313): RELAY cleared; a host's lines poisoned; a TagQ for
each line a crucible owns that has no open transaction. -/
def State.sweepRun (s : State) (k : Nat) : State :=
  let x := s.ks k
  x.dir.foldl (fun s e =>
    match e.2.st with
    | .hs (some a) vec =>
      if x.sweep.contains a then s.modKs k (fun x => x.setDir e.1 e.2.line e.2.way (.hs none vec)) else s
    | .hs none _ => s
    | .he o =>
      if x.sweep.contains o && !(s.ks k).closed e.1 && s.internalRoom k then
        if isHostAid o || (s.ks k).tagFail.contains o then s.poisonLine k e.1
        else
          let t : Txn := { line := e.2.line, sla := e.1, kind := .reclaim, phase := .tagq, wait := [o],
                           req := { kind := .wrf, aid := 0x1FF, home := k, line := e.2.line } }
          (s.modKs k (fun x => { x with txns := x.txns ++ [t] })).send (snoopMsg .tagQ k t o)
      else s) s

/-- Keystones of the build in service. -/
def State.keysUp (s : State) : List Nat := (buildKeys s.build).filter (fun k => s.keyUp k)

/-- An agent is declared dead (R310, R311): every keystone ends its part and sweeps; messages to it and from it are discarded. -/
def State.declareDead (s : State) (aid : Nat) : State :=
  if s.dead.contains aid then s
  else
    let s0 := { s with dead := setIns s.dead aid, attached := if isHostAid aid then setDel s.attached (aid - 0x100) else s.attached,
                       net := s.net.filter (fun m => !(m.aid == aid && m.kind != MsgKind.tagQ && m.kind != MsgKind.tagR)),
                       early := s.early.filter (fun m => m.aid != aid),
                       outst := s.outst.filter (fun a => a.aid != aid) }
    s0.keysUp.foldl (fun s k => (s.ksDead k aid).sweepRun k) s0

end Sys2Proof.Machine
end

