-- ==== Sys2Proof/Machine/Cache.lean ====
section
/-! DEFINITION. The crucible cache (chapter 14): placement and replacement (R329 to R331), misses and fills (R333, R305), the
write-back buffer (R301), snoops (Table 11.5, R302), the range engine (R340 to R344), and poison marks (R336). -/

namespace Sys2Proof.Machine

open Sys2Proof

/-- index(a) for line a / 64 (R329). -/
def cacheIndex (line : Nat) : Nat :=
  (line % 2 ^ 10) ^^^ (line / 2 ^ 10 % 2 ^ 10) ^^^ (line / 2 ^ 20 % 2 ^ 10) ^^^ (line / 2 ^ 30 % 2 ^ 5)

/-- One advance of the replacement LFSR (R330). -/
def lfsrNext (x : Nat) : Nat :=
  (x * 2 % 2 ^ 16) ||| ((x / 2 ^ 15 + x / 2 ^ 13 + x / 2 ^ 12 + x / 2 ^ 10) % 2)

/-- Poison marks of a line that arrives with its poison bit set (R336). -/
def poisonMarks (p : Bool) : BitVec 8 := if p then 0xFF else 0

/-- A state of a snoop answer or data message as a copy's state. -/
def ackOf : CSt → AckState
  | .d => .d | .x => .x | .s => .s | .l => .l

/-- A line's copy set or ended; the end of the reserved line's copy ends a cache-held reservation (Table 15.4). -/
def Cru.setLine (c : Cru) (line : Nat) (x : CLine) : Cru := { c with cache := tblSet c.cache line x }
def Cru.dropLine (c : Cru) (line : Nat) : Cru :=
  { c with cache := tblDel c.cache line, resv := if c.resv = some line then none else c.resv }

/-- Whether a crucible can send a WbD, WbK or EvC for a line now: its write-back buffer has room (R331) and it holds a credit at the home
(R286). Where the home is out of service nothing is sent (R514). -/
def State.canWb (s : State) (n line : Nat) : Bool :=
  match s.homeUp line with
  | none => true
  | some k => (s.cru n).wb.length < 32 && s.hasCredit n k

/-- The message that takes a line out of the cache (R331): WbD from D, EvC from X and L, none from S. The line moves into the
write-back buffer. A write-back to a home out of service is discarded and the copy ends (R514). Its callers hold it back until
`canWb` allows it. -/
def State.evictLine (s : State) (n line : Nat) (x : CLine) (byRange : Bool) : State :=
  let s1 := s.modCru n (·.dropLine line)
  if x.st = .s then s1
  else
    match s.homeUp line with
    | none => s1
    | some k =>
      let (tag, s2) := s1.newTag
      let kd : MsgKind := if x.st = .d then .wbd else .evc
      let s3 := if byRange ∧ x.st = .d then s2.bump64 (aCr n 0x4030) 1 else s2
      ((s3.modCru n (fun c => { c with wb := tblSet c.wb line ⟨x.st, false, x.data, x.poison != 0, byRange⟩ })).issue
        { aid := n, home := k, line := line, store := x.st = .d, tag := tag, wb := true }).send
        { kind := kd, aid := n, home := k, line := line, tag := tag, data := x.data, poison := x.poison != 0 }

/-- cln of a line: a dirty line is written back and kept as X (R203, Table 14.4). -/
def State.cleanLine (s : State) (n line : Nat) (x : CLine) (byRange : Bool) : State :=
  if x.st ≠ .d then s
  else
    match s.homeUp line with
    | none => s.modCru n (·.dropLine line)
    | some k =>
      let (tag, s2) := s.newTag
      let s3 := if byRange then s2.bump64 (aCr n 0x4030) 1 else s2
      ((s3.modCru n (fun c =>
        { (c.setLine line { x with st := .x }) with wb := tblSet c.wb line ⟨.x, true, x.data, x.poison != 0, byRange⟩ })).issue
        { aid := n, home := k, line := line, store := true, tag := tag, wb := true }).send
        { kind := .wbk, aid := n, home := k, line := line, tag := tag, data := x.data, poison := x.poison != 0 }

/-- The way a fill takes (R330), with the victim it sends out; none while no way is eligible. -/
def Cru.fillWay (c : Cru) (line lfsr : Nat) : Option (Nat × Option (Nat × CLine)) :=
  let set := c.cache.filter (fun e => cacheIndex e.1 == cacheIndex line)
  let at? (w : Nat) := set.find? (fun e => e.2.way == w)
  match (List.range 16).find? (fun w => (at? w).isNone) with
  | some w => some (w, none)
  | none =>
    let ok (w : Nat) : Bool := match at? w with
      | some e => (tblFind c.miss e.1).isNone && (tblFind c.wb e.1).isNone
      | none => false
    match ((List.range 16).map (fun i => (lfsr + i) % 16)).find? ok with
    | none => none
    | some w =>
      match at? w with
      | some e => some (w, some e)
      | none => none

/-- Install a line that has come (R330, R331, R305); none while it must wait, for a way or for its victim's write-back. -/
def State.install (s : State) (n line : Nat) (st : CSt) (d : LineData) (p : Bool) : Option State :=
  let c := s.cru n
  match tblFind c.cache line with
  | some x => some (s.modCru n (·.setLine line { x with st := st, data := d, poison := poisonMarks p }))
  | none =>
    match c.fillWay line ((s.reg (aCr n 0x403C)).toNat % 16) with
    | none => none
    | some (w, none) => some (s.modCru n (·.setLine line ⟨st, d, poisonMarks p, w⟩))
    | some (w, some (vl, v)) =>
      if v.st ≠ .s ∧ s.canWb n vl = false then none
      else
      let s1 := (s.setReg (aCr n 0x403C) (BitVec.ofNat 32 (lfsrNext (s.reg (aCr n 0x403C)).toNat))).evictLine n vl v false
      some (s1.modCru n (·.setLine line ⟨st, d, poisonMarks p, w⟩))

/-- Whether the cache installs what it fetches: in DRAINING and BYPASS every miss acts as its streaming form (R346, R347). -/
def Cru.installs (c : Cru) : Bool := c.cst == .enabled || c.cst == .invalidating

/-- Open a miss entry and send its request, when an entry and a credit are free (R333); none where it must wait. The line's home must
be in service. -/
def State.openMiss (s : State) (n line k : Nat) (kd : MsgKind) (noInst fetch : Bool) (resv : Bool := false) :
    Option State :=
  let c := s.cru n
  if 384 ≤ c.miss.length || !s.hasCredit n k then none
  else
    let (tag, s1) := s.newTag
    some ((((s1.modCru n (fun c =>
      { c with miss := tblSet c.miss line { req := kd, tag := tag, noInst := noInst, fetch := fetch, rd := !fetch } })).bump64
      (aCr n 0x4028) 1).issue { aid := n, home := k, line := line, store := kd == .rdx || kd == .upg, tag := tag }).send
      { kind := kd, aid := n, home := k, line := line, tag := tag, resv := resv })

/-- The copy's state that a data message grants. -/
def grantOf : MsgKind → AckState
  | .dataX => .x | .dataD => .d | .dataS => .s | .dataL => .l | .cmpX => .x | _ => .i

/-- A line entered into the instruction cache (R73): 512 lines. Its organisation is not stated: which line leaves a full one is a free
choice (log entry 1). -/
def State.icFill (s : State) (n line : Nat) (d : LineData) (p : BitVec 8) : State :=
  let ic := (s.cru n).ic
  if ic.length < 512 || (tblFind ic line).isSome then s.modCru n (fun c => { c with ic := tblSet c.ic line (d, p) })
  else
    let (w, s1) := s.takeWord
    s1.modCru n (fun c => { c with ic := tblSet (tblDel c.ic ((ic.getD (w.toNat % 512) (line, (d, p))).1)) line (d, p) })

/-- The instruction word at an address of a line. -/
def lineInstr (d : LineData) (pc : Nat) : Word := BitVec.ofNat 64 (bitsOf d (64 * (pc / 8 % 8)) 64)

/-- The line a crucible's fetch has waited for, or finds at hand: it stands in the instruction cache (R346), and the word at the PC traps
with FETCH_POISON where it is poisoned, and with ILLEGAL where it is no instruction (R143 to R146, R189). -/
def State.fetched (s : State) (n line : Nat) (d : LineData) (p : BitVec 8) : State :=
  let s1 := (s.icFill n line d p).modCru n (fun c => { c with fetchPend := false })
  let pc := (s1.cru n).mki.pc
  if pc / 64 ≠ line then s1
  else if p.getLsbD (pc / 8 % 8) then s1.cruTrap n .seq tFetchPoison pc pc
  else if !mkiDefined (lineInstr d pc) then s1.cruTrap n .seq tIllegal pc 0
  else s1

/-- A miss entry whose data has come is installed when it can be (R334), and goes to the fetch that waits for it. A line that is not
installed waits for its reader, and is let go where there is none. -/
def State.tryFill (s : State) (n line : Nat) : State :=
  match tblFind (s.cru n).miss line with
  | some e =>
    (match e.got with
    | some (g, d, p) =>
      let go (s : State) : State := if e.fetch && (s.cru n).fetchPend then s.fetched n line d (poisonMarks p) else s
      if e.noInst then
        go (s.modCru n (fun c => { c with miss := if e.rd then tblSet c.miss line { e with fetch := false } else tblDel c.miss line }))
      else
        let st : CSt := match g with | .d => .d | .x => .x | .l => .l | _ => .s
        (match s.install n line st d p with
        | some s1 => go (s1.modCru n (fun c => { c with miss := tblDel c.miss line }))
        | none => s)
    | none => s)
  | none => s

/-- Try every waiting fill again. -/
def State.tryFills (s : State) (n : Nat) : State :=
  (s.cru n).miss.foldl (fun s e => s.tryFill n e.1) s

/-- What the fetch and the accesses of a crucible waited for is dropped (Table 4.5, ABORT; R134): a line that has come and is not to be
installed goes, and one still to come has no reader. -/
def Cru.dropReads (c : Cru) : Cru :=
  { c with
    fetchPend := false
    miss := (c.miss.filter (fun e => !(e.2.noInst && e.2.got.isSome))).map (fun e => (e.1, { e.2 with fetch := false, rd := false })) }

/-- Data, or CmpX, reaches a crucible (R305): the first message of a transaction tag is kept, a second discarded. -/
def State.cruData (s : State) (n : Nat) (m : Msg) : State :=
  match tblFind (s.cru n).miss m.line with
  | some e =>
    if e.tag ≠ m.tag ∨ e.got.isSome ∨ e.err then s
    else
      let s1 := s.complete n m.tag
      if m.kind = .cmpX then
        match tblFind (s.cru n).cache m.line with
        | some x => s1.modCru n (fun c => { (c.setLine m.line { x with st := .x }) with miss := tblDel c.miss m.line })
        | none => s1.modCru n (fun c => { c with miss := tblDel c.miss m.line })
      else
        (s1.modCru n (fun c => { c with miss := tblSet c.miss m.line { e with got := some (grantOf m.kind, m.data, m.poison) } })).tryFill n m.line
  | none => s.complete n m.tag

/-! ## Snoops (Table 11.5, R302) -/

/-- The answer to a snoop. -/
def State.snpAck (s : State) (m : Msg) (st : AckState) (fwd dat : Bool) : State :=
  s.send { kind := .snpAck, aid := m.aid, home := m.home, line := m.line, tag := m.tag, other := m.other, ack := st, ok := fwd, dat := dat }

/-- Data sent to the requester a snoop names. -/
def State.fwdData (s : State) (m : Msg) (kd : MsgKind) (x : CLine) : State :=
  s.send { kind := kd, aid := m.other, home := m.home, line := m.line, tag := m.tag, data := x.data, poison := x.poison != 0 }

/-- Dirty data returned to the home. -/
def State.retData (s : State) (m : Msg) (x : CLine) : State :=
  s.send { kind := .snpData, aid := m.aid, home := m.home, line := m.line, tag := m.tag, data := x.data, poison := x.poison != 0 }

/-- The state an owner keeps after SnpFwdS: L under nearest-sharer sourcing, S otherwise (R278, R280). -/
def Msg.keepS (m : Msg) : CSt := if m.near then .l else .s

/-- A snoop of one line at the crucible it addresses. -/
def State.cruSnoop (s : State) (m : Msg) : State :=
  let n := m.aid
  let c := s.cru n
  match tblFind c.wb m.line with
  | some e =>
    let s1 :=
      if e.keep then
        match tblFind c.cache m.line, m.kind with
        | some x, .snpFwdS => s.modCru n (·.setLine m.line { x with st := Machine.Msg.keepS m })
        | some _, .snpCur => s
        | some _, _ => s.modCru n (·.dropLine m.line)
        | none, _ => s
      else s
    s1.snpAck m .wbp false false
  | none =>
    match tblFind c.cache m.line with
    | none => s.snpAck m .i false false
    | some x =>
      match m.kind with
      | .snpFwdS =>
        let k := if x.st = .s ∨ x.st = .l then x.st else Machine.Msg.keepS m
        let s1 := (s.modCru n (·.setLine m.line { x with st := k })).fwdData m .dataS x
        let s2 := if x.st = .d then s1.retData m x else s1
        s2.snpAck m (ackOf k) true (x.st == .d)
      | .snpFwdX =>
        ((s.modCru n (·.dropLine m.line)).fwdData m (if x.st = .d then .dataD else .dataX) x).snpAck m .i true false
      | .snpCur => (s.fwdData m .dataC x).snpAck m (ackOf x.st) true false
      | .snpGetI =>
        let s1 := s.modCru n (·.dropLine m.line)
        (if x.st = .d then s1.retData m x else s1).snpAck m .i false (x.st == .d)
      | _ => (s.modCru n (·.dropLine m.line)).snpAck m .i false false

/-- Whether a grant of the line a snoop names is on its way to the crucible, or has come and waits to be installed. The snoop is then
answered after the copy stands (R271; log entry 95). -/
def State.grantComing (s : State) (m : Msg) : Bool :=
  let hit (l : Nat) : Bool := if m.kind = .snpInvG then l / 64 == m.line / 64 else l == m.line
  s.net.any (fun g => g.aid == m.aid && hit g.line && grantOf g.kind != .i) ||
  (s.cru m.aid).miss.any (fun e => hit e.1 && !e.2.noInst && e.2.got.isSome)

/-- SnpInvG: every S copy of the granule ends (R279). -/
def State.cruSnoopG (s : State) (m : Msg) : State :=
  let n := m.aid
  let ls := (s.cru n).cache.filter (fun e => e.1 / 64 == m.line / 64 && e.2.st == .s)
  (ls.foldl (fun s e => s.modCru n (·.dropLine e.1)) s).snpAck m .i false false

/-- A snoop that its crucible accepts: acted on, or kept until the grant it has overtaken stands. -/
def State.snoopIn (s : State) (m : Msg) : State :=
  if s.grantComing m then s.modCru m.aid (fun c => { c with snps := c.snps ++ [m] })
  else if m.kind = .snpInvG then s.cruSnoopG m
  else s.cruSnoop m

/-- The kept snoops of a crucible are tried again, in order. -/
def State.snoopsGo (s : State) (n : Nat) : State :=
  (s.cru n).snps.foldl (fun s m => s.snoopIn m) (s.modCru n (fun c => { c with snps := [] }))

/-- The answer to a TagQ: the tag state, or that of the write-back buffer (R315); FAIL for a line of a set whose tags cannot be
read (R338). -/
def State.tagAnswer (s : State) (m : Msg) : AckState :=
  let c := s.cru m.aid
  if c.tagBad.contains (cacheIndex m.line) then .fail
  else match tblFind c.wb m.line, tblFind c.cache m.line with
  | some e, none => ackOf e.st
  | _, some x => ackOf x.st
  | none, none => .i

/-! ## The range engine (R340 to R344) -/

/-- Where the walk of a command meets a line: its address, or its set. -/
def RangeEng.pos (r : RangeEng) (line : Nat) : Nat := if r.bySet then cacheIndex line else line

/-- The lines on which a command acts or waits when it reaches a position: present, with an open miss entry that is to be installed, or
in the write-back buffer (R343, R344). -/
def Cru.rangeAt (c : Cru) (r : RangeEng) (pos : Nat) : List RangeItem :=
  let here (l : Nat) : Bool := r.lo ≤ l && l ≤ r.hi && r.pos l == pos
  ((c.cache.filter (fun e => here e.1)).map (fun e =>
    { line := e.1, miss := (tblFind c.miss e.1).map (·.tag) : RangeItem })) ++
  ((c.miss.filter (fun e => here e.1 && !e.2.noInst && (tblFind c.cache e.1).isNone)).map (fun e =>
    { line := e.1, miss := some e.2.tag : RangeItem })) ++
  ((c.wb.filter (fun e => here e.1 && !e.2.byRange && (tblFind c.cache e.1).isNone && (tblFind c.miss e.1).isNone)).map (fun e =>
    { line := e.1, wb := true : RangeItem }))

/-- The next position at or after the cursor where a command meets a line. -/
def Cru.rangeNext (c : Cru) (r : RangeEng) : Option Nat :=
  let ps := (((c.cache.map (·.1)) ++ (c.miss.filter (fun e => !e.2.noInst)).map (·.1) ++ c.wb.map (·.1)).filter (fun l =>
    r.lo ≤ l && l ≤ r.hi && r.cursor ≤ r.pos l)).map r.pos
  ps.foldl (fun m p => match m with | none => some p | some q => some (min p q)) none

/-- Whether a command sends a message for a copy it acts on (Table 14.4). -/
def RangeEng.sends (r : RangeEng) (st : CSt) : Bool := if r.flush then st != .s else st == .d

/-- The walk: act on each line in order until the end or a line that must wait (R343, R344). A line met in the write-back buffer is
waited for and then passed over; a line met with an open miss entry is acted on once that entry has installed it. -/
def State.rangeWalk (s : State) (n : Nat) : Nat → State
  | 0 => s
  | fuel + 1 =>
    let c := s.cru n
    match c.range with
    | none => s
    | some r =>
      if r.walked then s
      else
        match r.todo with
        | [] =>
          (match c.rangeNext r with
          | none => s.modCru n (fun c => { c with range := some { r with walked := true } })
          | some p => (s.modCru n (fun c => { c with range := some { r with todo := c.rangeAt r p, cursor := p + 1 } })).rangeWalk n fuel)
        | i :: rest =>
          let next (s : State) : State :=
            (s.modCru n (fun c => { c with range := some { r with todo := rest } })).rangeWalk n fuel
          let open? : Bool := match tblFind c.miss i.line with | some e => some e.tag == i.miss | none => false
          if open? || (tblFind c.wb i.line).any (fun e => !e.byRange) then s
          else
            match (if i.wb then none else tblFind c.cache i.line) with
            | none => next s
            | some x =>
              if r.sends x.st && !s.canWb n i.line then s
              else next (if r.flush then s.evictLine n i.line x true else s.cleanLine n i.line x true)

/-- Resume the walk of a crucible's range engine. -/
def State.rangeGo (s : State) (n : Nat) : State := s.rangeWalk n (2 * ((s.cru n).cache.length + (s.cru n).miss.length + (s.cru n).wb.length) + 2)

/-- Start a range command (R340, R341): a range of at most 1024 lines is walked by address, any other by set. -/
def State.rangeStart (s : State) (n : Nat) (op : Nat) (why : RangeFor) (by_ : Option Nat := none) : State :=
  let lo := s.reg64 (aCr n 0x4008) / 64
  let hi := s.reg64 (aCr n 0x4010) / 64
  let all := op = 3 ∨ op = 4
  let r : RangeEng :=
    if all then { flush := op = 4, bySet := true, lo := 0, hi := 2 ^ 35, cursor := 0, walked := false, why := why, by_ := by_ }
    else { flush := op = 2, bySet := 1024 < hi + 1 - lo, lo := lo, hi := hi, cursor := if 1024 < hi + 1 - lo then 0 else lo,
           walked := hi < lo, why := why, by_ := by_ }
  ((s.setFld (aCr n 0x401C) 16 3 op).modCru n (fun c => { c with range := some r })).rangeGo n

/-- Whether a crucible's range command has ended: walked, and every write-back and EvC it issued has its Cmp (R341). -/
def Cru.rangeDone (c : Cru) : Bool :=
  match c.range with
  | some r => r.walked && !c.wb.any (fun e => e.2.byRange)
  | none => false

/-- Cmp of a WbD, WbK or EvC reaches the crucible, or the access is declared dead (R301, R302, R365). -/
def State.cruWbCmp (s : State) (n line : Nat) : State := (s.modCru n (fun c => { c with wb := tblDel c.wb line })).tryFills n

end Sys2Proof.Machine
end

