-- ==== Sys2Proof/Machine/Operands.lean ====
section
/-! DEFINITION. Operands of MKI instructions: s, p and v registers and tiles (Table 6.1), guards (R147), effective addresses
(R139, R144), mould bytes and their poison marks (R84, R180), flask checks (R167, R401, R406), and the static checks behind ILLEGAL
and PROFILE (R141, R143 to R146). -/

namespace Sys2Proof.Machine

open Sys2Proof

/-! ## Scalar state -/

/-- s[r]; s0 reads zero (Table 6.1). -/
def Mki.sreg (m : Mki) (r : Nat) : Word := if r = 0 then 0 else tblGet m.s 0 r

/-- The state with s[r] written; writes to s0 are discarded (Table 6.1). -/
def Mki.setS (m : Mki) (r : Nat) (v : Word) : Mki := if r = 0 then m else { m with s := tblSet m.s r v }

/-- p[r]. -/
def Mki.preg (m : Mki) (r : Nat) : Word := tblGet m.p 0 r

/-- The state with p[r] written. -/
def Mki.setP (m : Mki) (r : Nat) (v : Word) : Mki := { m with p := tblSet m.p r v }

/-- PC + 8. -/
def Mki.step (m : Mki) : Mki := { m with pc := m.pc + 8 }

/-- The guard of an instruction as a mask (R147). -/
def Mki.guard (m : Mki) (g : Guard) : Word :=
  if g.pe then (if g.pn then ~~~(m.preg g.pr.toNat) else m.preg g.pr.toNat) else BitVec.allOnes 64

/-- The core number of a unit. -/
def coreIx (e c : Fin 4) : Nat := coreNo e.val c.val

/-- The scalar state of a unit. -/
def State.mki (s : State) : MUnit → Mki
  | .cru n => (s.cru n.val).mki
  | .core e c => (s.core (coreIx e c)).mki

/-- The state with a unit's scalar state changed. -/
def State.modMki (s : State) (u : MUnit) (f : Mki → Mki) : State :=
  match u with
  | .cru n => s.modCru n.val (fun c => { c with mki := f c.mki })
  | .core e c => s.modCore (coreIx e c) (fun k => { k with mki := f k.mki })

/-- The agent number of a unit (Table 11.1). -/
def aidOf : MUnit → Nat
  | .cru n => n.val
  | .core e c => aidCore (coreIx e c)

/-- Whether a unit runs the crucible profile. -/
def isCru : MUnit → Bool
  | .cru _ => true
  | .core _ _ => false

/-! ## Vector registers, tiles and lanes -/

/-- v[r] of a crucible. -/
def Cru.vreg (c : Cru) (r : Nat) : VReg := tblGet c.v 0 r
def Cru.setV (c : Cru) (r : Nat) (v : VReg) : Cru := { c with v := tblSet c.v r v }

/-- A row of accumulator tile t of MU mu. -/
def Cru.trow (c : Cru) (mu t r : Nat) : VReg := tblGet c.t 0 (256 * mu + 64 * t + r)
def Cru.setTrow (c : Cru) (mu t r : Nat) (v : VReg) : Cru := { c with t := tblSet c.t (256 * mu + 64 * t + r) v }

/-- Stochastic generator g; after START its state is g + 1 (R117). -/
def Cru.gen (c : Cru) (g : Nat) : Reg := tblGet c.gens (BitVec.ofNat 32 (g + 1)) g
def Cru.setGen (c : Cru) (g : Nat) (x : Reg) : Cru := { c with gens := tblSet c.gens g x }

/-- Bits [lo + w - 1 : lo] of a register (R104). -/
def vbits (v : VReg) (lo w : Nat) : Nat := v.toNat / 2 ^ lo % 2 ^ w

/-- Element i of width w. -/
def velem (w : Nat) (v : VReg) (i : Nat) : Nat := vbits v (w * i) w

/-- 32-bit lane i. -/
def lane (v : VReg) (i : Nat) : Reg := BitVec.ofNat 32 (velem 32 v i)

/-- A register from elements of width w, element 0 first (R104). -/
def ofElems (w : Nat) (l : List Nat) : VReg := BitVec.ofNat 2048 (l.foldr (fun x acc => x % 2 ^ w + 2 ^ w * acc) 0)

/-- The register with bits [lo + w - 1 : lo] replaced. -/
def vput (v : VReg) (lo w x : Nat) : VReg := setBits v lo w x

/-- Element i of width w is enabled: the guard bit of the 32-bit lane that holds it (R147). -/
def enabled (g : Word) (w i : Nat) : Bool := g.getLsbD (w * i / 32)

/-- Elements of width w computed where enabled, kept elsewhere (R147). -/
def byElems (g : Word) (w : Nat) (old : VReg) (f : Nat → Nat) : VReg :=
  ofElems w ((List.range (2048 / w)).map (fun i => if enabled g w i then f i else velem w old i))

/-! ## The mould (R81, R84, R139) -/

/-- First byte beyond the mould. -/
def mouldEnd : Nat := 0x600000

/-- Bytes of crucible n's mould. -/
def State.mouldRead (s : State) (n a len : Nat) : List Byte := memRead s.mould (2 ^ 23 * n + a) len

/-- Bytes of the mould as a little-endian number. -/
def State.mouldNat (s : State) (n a len : Nat) : Nat := leNat (s.mouldRead n a len)

/-- The key of the 8-byte word at a mould address among the poison marks. -/
def mouldWord (n a : Nat) : Nat := 2 ^ 20 * n + a / 8

/-- The mould address of the first poisoned 8-byte word of a range (Table 6.7). -/
def State.mouldPoisoned (s : State) (n a len : Nat) : Option Nat :=
  ((s.mouldPoison.filter (fun k => mouldWord n a ≤ k && k ≤ mouldWord n (a + len - 1) && len != 0)).head?).map
    (fun k => 8 * (k - 2 ^ 20 * n))

/-- A write of whole 8-byte words with fresh check bits: their poison marks go (R181). -/
def State.mouldWrite (s : State) (n a : Nat) (bs : List Byte) : State :=
  { s with
    mould := memWrite s.mould (2 ^ 23 * n + a) bs
    mouldPoison := s.mouldPoison.filter (fun k => !(mouldWord n a ≤ k && k ≤ mouldWord n (a + bs.length - 1) && bs.length != 0)) }

/-- A write that merges into a word that keeps its mark (R181). -/
def State.mouldMerge (s : State) (n a : Nat) (bs : List Byte) : State :=
  { s with mould := memWrite s.mould (2 ^ 23 * n + a) bs }

/-- A 64-byte line written into the mould with its poison marks by word (R170). -/
def State.mouldLine (s : State) (n a : Nat) (d : LineData) (p : BitVec 8) : State :=
  let s1 := s.mouldWrite n a (leBytes 64 d.toNat)
  { s1 with mouldPoison := (List.range 8).foldl (fun l i => if p.getLsbD i then setIns l (mouldWord n a + i) else l) s1.mouldPoison }

/-- The poison marks of 64 mould bytes, by word. -/
def State.mouldMarks (s : State) (n a : Nat) : BitVec 8 :=
  BitVec.ofNat 8 ((List.range 8).foldl (fun acc i => acc + b2n (s.mouldPoison.contains (mouldWord n a + i)) * 2 ^ i) 0)

/-! ## Effective addresses (R139, R144) -/

/-- s[IDX] shifted by k of SH (R144). -/
def shiftOf (sh : BitVec 2) : Nat := [0, 3, 6, 12].getD sh.toNat 0

/-- The effective address, in 64 bits (R139, R144). -/
def effAddr (base idx : Word) (sh : BitVec 2) (off : BitVec 24) : Nat := (base + (idx <<< shiftOf sh) + off.signExtend 64).toNat

/-- A trap condition met: code and recorded address. -/
abbrev Trap := Option (Nat × Nat)

/-- Bits [40:0] of an address, as RANGE records it (Table 6.7). -/
def low41 (a : Nat) : Nat := a % 2 ^ 41

/-- The checks of a mould access: every byte below 0x60_0000 (R139), then alignment (R140). -/
def mouldCheck (a len align : Nat) : Trap :=
  if mouldEnd < a + len then some (tRange, low41 a) else if a % align ≠ 0 then some (tMisaligned, low41 a) else none

/-! ## Flasks (R399 to R406) -/

/-- A present segment decoded (Table 17.1): first byte, first byte beyond it, rights, type. -/
structure Seg where
  lo : Nat
  hi : Nat
  r : Bool
  w : Bool
  x : Bool
  device : Bool
  deriving DecidableEq, Repr

/-- A segment entry's fields, when V is set. -/
def segOf (e : Word × Word) : Option Seg :=
  if bitAt e.1 63 then
    let lo := bitsOf e.1 12 29 * 2 ^ 12
    some ⟨lo, lo + bitsOf e.2 0 29 * 2 ^ 12, bitAt e.2 57, bitAt e.2 58, bitAt e.2 59, bitAt e.2 60⟩
  else none

/-- The present segments of a flask; flask 0 and any number above 4095 have none (R399). -/
def State.segs (s : State) (f : Nat) : List Seg :=
  if f = 0 ∨ 4095 < f then []
  else match tblFind s.flasks f with
  | some k => k.segs.filterMap segOf
  | none => []

/-- The segment that covers a pool byte (R401). -/
def State.segAt (s : State) (f a : Nat) : Option Seg := (s.segs f).find? (fun g => g.lo ≤ a && a < g.hi)

/-- Rights of an access (R406). -/
inductive Right where
  | read | write | exec | any
  deriving DecidableEq, Repr

/-- Whether a segment grants a right. -/
def Seg.grants (g : Seg) : Right → Bool
  | .read => g.r | .write => g.w | .exec => g.x | .any => g.r || g.w || g.x

/-- The lowest byte of [a, b) that no segment covers with the right, of memory type NORMAL where `dev` is false (R167). Each pass moves
past one segment. -/
def State.flaskFail (s : State) (f : Nat) (right : Right) (dev : Bool) : Nat → Nat → Nat → Option Nat
  | 0, a, b => if a < b then some a else none
  | fuel + 1, a, b =>
    if b ≤ a then none
    else match s.segAt f a with
    | some g => if g.grants right && (dev || !g.device) then s.flaskFail f right dev fuel g.hi b else some a
    | none => some a

/-- The flask check of a range (R167). -/
def State.flaskCheck (s : State) (f : Nat) (right : Right) (dev : Bool) (a len : Nat) : Option Nat :=
  s.flaskFail f right dev 20 a (a + len)

/-- The checks of a scalar pool access (R139, R140, R167): RANGE, MISALIGNED, and on a crucible FLASK. -/
def State.poolCheck (s : State) (u : MUnit) (a size : Nat) (right : Right) (dev : Bool) : Trap :=
  if 2 ^ 41 ≤ a then some (tRange, low41 a)
  else if a % size ≠ 0 then some (tMisaligned, a)
  else match u with
  | .core _ _ => none
  | .cru n =>
    match s.flaskCheck (s.cru n.val).mki.flask right dev a size with
    | some b => some (tFlask, b)
    | none => none

/-- Whether a pool address lies in a segment of type DEVICE for a unit. -/
def State.isDevice (s : State) (u : MUnit) (a : Nat) : Bool :=
  match u with
  | .core _ _ => false
  | .cru n => match s.segAt (s.cru n.val).mki.flask a with | some g => g.device | none => false

/-! ## Dispatch conditions and fetch (R71, R189) -/

/-- Whether a unit is at an instruction boundary where it can dispatch: a crucible RUNNING with no trap, stall or fetch in progress; a
control core out of reset, not stopped and not waiting. A core in WFI leaves it when a line is set (State.coreWake). -/
def State.ready (s : State) : MUnit → Bool
  | .cru n =>
    let c := s.cru n.val
    c.st == .running && c.trap.isNone && c.seqw == .none && !c.fetchPend
  | .core e c =>
    let k := s.core (coreIx e c)
    k.out && !k.stopped && k.wait == .none && !k.wfi

/-- The range of the code window of a control core (R483). -/
def State.inCodeWindow (s : State) (a : Nat) : Bool := s.codeWindow ≤ a && a < s.codeWindow + 0x800000

/-- The line a crucible's fetch finds without a request, with its poison marks: in its instruction cache, or in its cache (R73, R346). -/
def Cru.fetchLine (c : Cru) (line : Nat) : Option (LineData × BitVec 8) :=
  match tblFind c.ic line with
  | some l => some l
  | none => (tblFind c.cache line).map (fun x => (x.data, x.poison))

/-- FETCH and FETCH_POISON of the fetch at a unit's PC (R189). -/
def State.fetchTrap (s : State) (u : MUnit) : Trap :=
  let pc := (s.mki u).pc
  if 2 ^ 41 ≤ pc ∨ pc % 8 ≠ 0 then some (tFetch, low41 pc)
  else
    match u with
    | .cru n =>
      let c := s.cru n.val
      if (s.flaskCheck c.mki.flask .exec true pc 8).isSome then some (tFetch, pc)
      else
        match c.fetchLine (pc / 64) with
        | some l => if l.2.getLsbD (pc / 8 % 8) then some (tFetchPoison, pc) else none
        | none => if (s.homeUp (pc / 64)).isNone then some (tFetchPoison, pc) else none
    | .core e _ =>
      if s.inCodeWindow pc then
        (if s.codePoison.contains (e.val * 2 ^ 20 + (pc - s.codeWindow) / 8) then some (tFetchPoison, pc) else none)
      else if (s.homeUp (pc / 64)).isNone then some (tFetchPoison, pc)
      else none

/-! ## Traps (R151, R154) -/

/-- A trap of the instruction a unit dispatches. -/
def State.unitTrap (s : State) (u : MUnit) (q : QueueId) (code pc addr : Nat) : State :=
  match u with
  | .cru n => s.cruTrap n.val q code pc addr
  | .core e c => s.coreTrap (coreIx e c) pc code addr

/-! ## Static checks (R143 to R146) -/

/-- A p register number is at most 15 (R144). -/
def pOk (r : BitVec 6) : Bool := r.toNat < 16

/-- A field of format A that no scalar instruction uses is not zero: C, RM, SAT, TY or bits [7:0] (R185). -/
def resA (f : FmtA) : Bool := f.c != 0 || f.rm != 0 || f.sat || f.ty != 0 || f.rsv != 0

/-- Whether a queued instruction has yet to write one of these registers (R136). -/
def Cru.pendingS (c : Cru) (rs : List Nat) : Bool :=
  (c.vq ++ c.xq).any (fun e => match e with | .op i => i.ws.any (fun r => r != 0 && rs.contains r) | _ => false)
def Cru.pendingP (c : Cru) (rs : List Nat) : Bool :=
  (c.vq ++ c.xq).any (fun e => match e with | .op i => i.wp.any (fun r => rs.contains r) | _ => false)

/-- What an instruction reads and writes of s and p (R136). -/
structure Uses where
  s : List (BitVec 6) := []
  p : List (BitVec 6) := []
  deriving DecidableEq, Repr

/-- Whether the interlock of R136 holds an instruction back. -/
def State.interlocked (s : State) (u : MUnit) (g : Guard) (r : Uses) : Bool :=
  match u with
  | .cru n =>
    let c := s.cru n.val
    c.pendingS (r.s.map (·.toNat)) || c.pendingP (r.p.map (·.toNat) ++ (if g.pe then [g.pr.toNat] else []))
  | .core _ _ => false

/-- A unit that dispatches an instruction does not stand in WFI (R194). -/
def State.wake (s : State) : MUnit → State
  | .cru _ => s
  | .core e c => s.modCore (coreIx e c) (fun k => { k with wfi := false })

/-- An instruction of the sequencer, or of a control core: where the unit can dispatch, the traps FETCH to PROFILE, the guard (R147,
R148), then its effect. `profileBad` says that the unit's profile lacks it (R141). -/
def State.front (s0 : State) (u : MUnit) (g : Guard) (illegal profileBad : Bool) (r : Uses) (whole : Bool) (eff : State → State) : State :=
  if !s0.ready u || s0.interlocked u g r then s0
  else
    let s := s0.wake u
    let pc := (s.mki u).pc
    match s.fetchTrap u with
    | some (c, a) => s.unitTrap u .seq c pc a
    | none =>
      if illegal then s.unitTrap u .seq tIllegal pc 0
      else if profileBad then s.unitTrap u .seq tProfile pc 0
      else if whole && !((s.mki u).guard g).getLsbD 0 then s.modMki u (fun m => { m with pc := pc + 8 })
      else eff s

/-- A sequencer instruction that never traps: a change of the scalar state, and PC + 8 unless it sets PC. -/
def State.scalar (s : State) (u : MUnit) (g : Guard) (illegal : Bool) (r : Uses) (f : Mki → Mki) : State :=
  s.front u g illegal false r true (fun s => s.modMki u (fun m => f { m with pc := m.pc + 8 }))

end Sys2Proof.Machine
end

