-- ==== Sys2Proof/Machine/Live.lean ====
section
/-! DEFINITION. The live values of the registers that show state of the set: crucibles, keystones, gates and their queues, ladles, the
sprue, courses, faults, the mark log and the quoin block. Every other word reads as it is stored. -/

namespace Sys2Proof.Machine

open Sys2Proof

/-! ## What the registers show -/

/-- CR_STATE.ROLE of a crucible. -/
def State.role (s : State) (n : Nat) : Nat := s.fld (aCr n 8) 8 2

/-- QN_POUR_STATUS.ACTIVE and RISERS_LEFT (Table 9.9). -/
def State.activeCrus (s : State) : List Nat := (buildCrus s.build).filter (fun n => s.role n == 1)
def State.risersLeft (s : State) : List Nat := (buildCrus s.build).filter (fun n => s.role n == 2 && (s.cru n).st == .standby)

/-- The number of a port (R398). -/
def portNo : SPort → Nat
  | .n => 0 | .e => 1 | .s => 2 | .w => 3

def portOf : Nat → SPort
  | 0 => .n | 1 => .e | 2 => .s | _ => .w

/-- The site a port of site x = 10y + x' faces; none outside the grid. N is the row above, E the column to the right. -/
def facing (x : Nat) : SPort → Option Nat
  | .n => if x < 90 then some (x + 10) else none
  | .e => if x % 10 < 9 then some (x + 1) else none
  | .s => if 10 ≤ x then some (x - 10) else none
  | .w => if 0 < x % 10 then some (x - 1) else none

def opposite : SPort → SPort
  | .n => .s | .e => .w | .s => .n | .w => .e

/-- The number under which a link stands in the state: 4x + p of its S or W end. -/
def linkKey (x : Nat) : SPort → Nat
  | .n => 4 * x | .e => 4 * x + 1 | .s => 4 * (x - 10) | .w => 4 * (x - 1) + 1

/-- A link as both its ends report it (R388); a port that faces outside the grid reads ABSENT (R398). -/
def State.link (s : State) (x : Nat) (p : SPort) : Link :=
  match facing x p with
  | some _ => tblGet s.links {} (linkKey x p)
  | none => { st := .absent }

def State.setLink (s : State) (x : Nat) (p : SPort) (l : Link) : State :=
  match facing x p with
  | some _ => { s with links := tblSet s.links (linkKey x p) l }
  | none => s

/-- Whether a site and what its port faces are both occupied. -/
def State.linkHas (s : State) (x : Nat) (p : SPort) : Bool :=
  hasSite s.build x && (match facing x p with | some y => hasSite s.build y | none => false)

/-- The registers of the port stand at 0xC000 of the keystone's window (Table 24.4). -/
def aMp (k o : Nat) : Nat := aKs k (0xC000 + o)

/-- MAP_ERR: a MASK has a bit at the POS of a valid bank bit (R539). -/
def State.mapErr (s : State) (k : Nat) : Bool :=
  let n := s.fld (aMp k 8) 16 4
  (List.range n).any (fun i => (List.range n).any (fun j =>
    (s.reg64 (aMp k (0x100 + 8 * i)) % 2 ^ 36).testBit (bitsOf (s.reg (aMp k (0x104 + 8 * j))) 24 6)))

/-- GT_SLOT_CTRL and GT_SLOT_STATE (Table 20.1). -/
def aSlot (g : Nat) : Nat := aGt g 0x8004
def State.slotState (s : State) (g : Nat) : Nat := s.fld (aGt g 0x8008) 0 4
def State.setSlot (s : State) (g st pwr attn : Nat) : State :=
  ((s.setFld (aGt g 0x8008) 0 4 st).setFld (aSlot g) 4 2 pwr).setFld (aSlot g) 2 2 attn
def State.linkEnabled (s : State) (g : Nat) : Bool := s.fld (aSlot g) 1 1 == 1

/-- Host reads open and not quarantined (GT_TAGS.OPEN), of a head or of one LD. -/
def Gate.openTags (x : Gate) : List (Nat × HTag) := x.tags.filter (fun e => e.2.left.isNone)

/-- The links of the sprue that an occupied site has, by their S or W end. -/
def State.sprueLinks (s : State) : List (Nat × SPort) :=
  (List.range 100).flatMap (fun x => ([SPort.n, .e].filter (fun p =>
    match facing x p with | some y => hasSite s.build x || hasSite s.build y | none => false)).map (fun p => (x, p)))

/-- SP_STATUS.TRAINED (Table 16.6). -/
def State.spTrained (s : State) : Bool :=
  s.sprueLinks.all (fun e => (s.link e.1 e.2).st != .reset && (s.link e.1 e.2).st != .training)

/-- A step of Table 25.2 has ended: it has begun, and what it waits for has come about. -/
def State.stepEnded (s : State) (i : Nat) : Bool :=
  s.rst.steps.contains i &&
  (match i with
  | 1 => (buildKeys s.build).all (fun k => (s.ks k).hst != .invalidating)
  | 2 => s.spTrained
  | 3 => (s.quoin s.active).passed
  | 4 => (buildCrus s.build).all (fun n => s.rst.badDies.contains (siteCru n) || ((s.cru n).st != .off && (s.cru n).st != .selftest))
  | 5 => (s.quoin s.active).booted
  | 7 => !s.rst.stopped
  | 11 => s.tb.running
  | 12 => (List.range 8).all (fun g => !s.gateIn g || !(s.gate g).prsnt || 2 ≤ s.slotState g)
  | _ => true)

/-- QN_BRINGUP.STEP: the highest step n for which steps 1 to n have all ended (R548). -/
def State.bringupStep (s : State) : Nat := ((List.range 12).map (· + 1)).takeWhile (fun i => s.stepEnded i) |>.length

/-- QN_BRINGUP.DONE (R548). -/
def State.bringupDone (s : State) : Bool := s.stepEnded 11 && s.stepEnded 12

/-- OUTSTANDING (R435). -/
def HostQ.outstanding (h : HostQ) : Nat := h.entries.length

/-- A descriptor's operation (Table 17.3), and whether it needs requests of its gate (Table 17.4). -/
def dOp (w : List Word) : Nat := bitsOf (w.getD 0 0) 0 8
def LDesc.op (d : LDesc) : Nat := dOp d.w
def LDesc.hostSide (d : LDesc) : Bool := d.op == 1 || d.op == 2 || d.op == 4

/-- Word i of a value wider than 32 bits. -/
def word32 (v i : Nat) : Reg := BitVec.ofNat 32 (v / 2 ^ (32 * i))

/-- A number from a list of bits. -/
def bitsNat (l : List Bool) : Nat := l.foldr (fun b acc => b2n b + 2 * acc) 0

/-- Codes of CR_CACHE_STATUS.STATE (Table 14.8). -/
def cacheCode : CacheSt → Nat
  | .enabled => 0 | .draining => 1 | .bypass => 2 | .invalidating => 3

/-- Codes of GT_Q_STATUS.STATE (Table 18.8). -/
def qCode : QSt → Nat
  | .disabled => 0 | .running => 1 | .stopped => 2 | .suspended => 3 | .disabling => 4

/-- Codes of Table 16.4. -/
def linkCode : LinkSt → Nat
  | .reset => 0 | .training => 1 | .active => 2 | .retrain => 3 | .absent => 4 | .failed => 5

/-! ## Crucibles (Tables 4.6 to 4.9, 14.8) -/

/-- CR_CLOCK.EFFECTIVE: the rate in effect in units of 62.5 MHz, half of the setting in chill (R85). -/
def State.aclkRate (s : State) (n : Nat) : Nat :=
  if !(s.cru n).aclkOn then 0 else (s.fld (aCr n 0xC) 0 5 + 1) * (if s.fc.chill then 1 else 2)

/-- What the window of a RETIRED crucible still returns (R518). -/
def retiredReads (o : Nat) : Bool :=
  o == 0 || o == 8 || (0x24 ≤ o && o < 0x54) || (0x4020 ≤ o && o < 0x403C)

def State.liveCr (s : State) (n o : Nat) : Reg :=
  let c := s.cru n
  let w := s.reg (aCr n o)
  match o with
  | 0x8 => setBits w 0 4 (cruCode c.st)
  | 0xC => BitVec.ofNat 32 (b2n s.fc.chill * 2 ^ 31 + s.aclkRate n * 2 ^ 16) ||| (w &&& 0x1F)
  | 0x4004 => BitVec.ofNat 32 (cacheCode c.cst)
  | 0x401C => setBits w 31 1 (b2n c.range.isSome)
  | _ => w

/-! ## Keystones (Tables 11.10, 12.6, 14.9, 24.4) -/

/-- The counters that the window of a keystone out of service still returns (R518). -/
def keyOutReads (o : Nat) : Bool :=
  o == 0xFF0 || (0x4010 ≤ o && o < 0x4048) || (0x4050 ≤ o && o < 0x4060) || (0x800C ≤ o && o < 0x8028) || (0xC010 ≤ o && o < 0xC028) ||
  (0xC200 ≤ o && o < 0xC240)

def State.liveKs (s : State) (k o : Nat) : Reg :=
  let x := s.ks k
  let w := s.reg (aKs k o)
  match o with
  | 0x4000 => BitVec.ofNat 32 x.dir.length
  | 0x4004 => BitVec.ofNat 32 x.regions.length
  | 0x4008 => BitVec.ofNat 32 x.txns.length
  | 0x4044 => setBits w 31 1 (b2n x.sweeping)
  | 0x4048 => BitVec.ofNat 32 x.retry.length
  | 0x8004 =>
    BitVec.ofNat 32 (min 64 x.evq.length * 2 ^ 16 +
      (if x.hst = .invalidating ∧ !s.rst.steps.contains 1 then 0 else cacheCode x.hst))
  | 0x8008 => BitVec.ofNat 32 (x.hearth.countP (fun e => e.2.dirty))
  | 0xC004 => setBits w 30 1 (b2n (s.mapErr k))
  | _ => w

/-! ## Gates, slots and host queues (Tables 18.8, 19.7, 20.1) -/

/-- The registers of one queue, at offset o of its 64 bytes. -/
def State.liveQ (s : State) (q a o : Nat) : Reg :=
  let x := s.hq q
  match o with
  | 0x14 => 0
  | 0x18 =>
    BitVec.ofNat 32 (x.outstanding * 2 ^ 20 + (x.retries - 1) * 2 ^ 16 + x.cause * 2 ^ 8 + qCode x.st)
  | 0x1C => BitVec.ofNat 32 (x.ignored * 2 ^ 16 + x.torn)
  | 0x20 => word32 x.sqHead 0 | 0x24 => word32 x.sqHead 1
  | 0x28 => word32 x.sqDb 0 | 0x2C => word32 x.sqDb 1
  | 0x30 => word32 x.cqTail 0 | 0x34 => word32 x.cqTail 1
  | 0x38 => word32 x.cqHead 0 | 0x3C => word32 x.cqHead 1
  | _ => s.reg a

/-- The page of LD l of gate g, at offset o. -/
def State.liveLdPage (s : State) (g l o : Nat) : Reg :=
  let a := aGt g (0x40000 + 0x4000 * l + o)
  let d := s.hd (16 * g + l)
  if o < 0x400 then s.liveQ (256 * g + 16 * l + o / 0x40) a (o % 0x40)
  else match o with
  | 0x410 => word32 d.nqTail 0 | 0x414 => word32 d.nqTail 1
  | 0x418 => word32 d.nqHead 0 | 0x41C => word32 d.nqHead 1
  | _ => s.reg a

def State.liveGt (s : State) (g o : Nat) : Reg :=
  let x := s.gate g
  let w := s.reg (aGt g o)
  if 0x40000 ≤ o ∧ o < 0x80000 then s.liveLdPage g ((o - 0x40000) / 0x4000) (o % 0x4000)
  else match o with
  | 0x4000 =>
    BitVec.ofNat 32 (b2n x.info.extFail * 2 ^ 24 + x.info.rate.toNat * 2 ^ 20 + x.info.width.toNat * 2 ^ 8 + x.info.flit.toNat * 2 ^ 6 +
      b2n x.info.mld * 2 ^ 5 + b2n x.info.cacheEn * 2 ^ 4 + b2n x.ideLink * 2 ^ 3 + b2n x.retraining * 2 + b2n x.inL0)
  | 0x400C => BitVec.ofNat 32 ((x.tags.length - x.openTags.length) * 2 ^ 16 + x.openTags.length)
  | 0x8000 =>
    BitVec.ofNat 32 (x.prsntCount % 256 * 2 ^ 16 + x.attnCount % 256 * 2 ^ 8 + b2n x.perst * 2 + b2n x.prsnt)
  | _ => w

/-! ## Ladles (Table 17.6) -/

/-- STATE of a ladle. -/
def State.ladleCode (s : State) (l : Nat) : Nat :=
  let x := s.ladle l
  if x.out || x.testing then 5
  else if s.isHeld [30, 31] l then 3
  else if x.descs.any (fun d => d.hostSide && !(s.hd (d.q / 16)).bme) then 4
  else if x.descs.isEmpty then 0
  else if !x.opened || x.budget == some 0 then 1
  else 2

def State.liveLd (s : State) (o : Nat) : Reg :=
  if 0x4100 ≤ o ∧ o < 0x4200 then
    let l := (o - 0x4100) / 4
    BitVec.ofNat 32 (l / 4 % 2 * 2 ^ 31 + min (2 ^ 16 - 1) (s.ladle l).descs.length * 2 ^ 8 + s.ladleCode l)
  else s.reg (aLd o)

/-! ## The sprue (Tables 16.6, 16.7) -/

def State.liveSp (s : State) (o : Nat) : Reg :=
  let w := s.reg (aSp o)
  let count (f : Link → Bool) : Nat := s.sprueLinks.countP (fun e => f (s.link e.1 e.2))
  if o = 4 then
    BitVec.ofNat 32 (count (·.st == .failed) * 2 ^ 24 + count (fun l => l.st == .active && l.modules < 6) * 2 ^ 16 +
      count (·.st == .active) * 2 ^ 8 + b2n s.spTrained)
  else if 0x100000 ≤ o then
    let x := (o - 0x100000) / 0x10000
    let p := o % 0x10000
    if 0x10 ≤ p ∧ p < 0x20 then
      let l := s.link x (portOf ((p - 0x10) / 4))
      BitVec.ofNat 32 (l.spares * 2 ^ 16 + l.modules * 2 ^ 8 + linkCode l.st)
    else w
  else w

/-! ## Courses and time (Tables 3.5 to 3.15) -/

def State.liveCo (s : State) (o : Nat) : Reg :=
  let t := s.tb
  match o with
  | 0x8 =>
    BitVec.ofNat 32 (bitsNat [t.running, t.starting, t.frameLock, t.holdover, t.relocking, t.todMissing, t.timeValid, t.aligned])
  | 0xC => BitVec.ofNat 32 (t.curN * 2 ^ 16 + t.frame)
  | 0x10 => word32 (t.course % 2 ^ 48) 0 | 0x14 => word32 (t.course % 2 ^ 48) 1
  | 0x18 => word32 s.coTime 0 | 0x1C => word32 s.coTime 1
  | 0x20 => word32 t.boundaryTime 0 | 0x24 => word32 t.boundaryTime 1
  | 0x34 => BitVec.ofNat 32 t.nextN
  | 0x38 => BitVec.ofNat 32 (min 0xFFFF t.todErr * 2 ^ 16 + min 0xFFFF t.glitch)
  | 0x3C => t.todError
  | 0x40 => BitVec.ofNat 32 (min (2 ^ 32 - 1) t.holdCourses)
  | _ => s.reg (aCo o)

/-! ## Faults and the mark log (Tables 22.8, 22.9, 23.1, 23.3) -/

def State.liveFt (s : State) (o : Nat) : Reg :=
  match o with
  | 0x4 =>
    BitVec.ofNat 32 (b2n s.fc.chill * 2 ^ 31 + b2n s.fc.aliveStopped * 2 ^ 30 + b2n s.faultLow * 2 ^ 29 + s.ftQueued)
  | 0xC => BitVec.ofNat 32 (b2n s.fc.therm * 2 ^ 5 + b2n s.fc.warn * 2 ^ 4 + s.fc.cleanLeft)
  | _ => s.reg (aFt o)

/-- A record's eight words (Table 23.1). -/
def MarkRec.word (m : MarkRec) (i : Nat) : Reg :=
  match i with
  | 0 => word32 m.time 0
  | 1 => word32 m.time 1
  | 2 =>
    BitVec.ofNat 32 (m.code % 2 ^ 16 + 2 ^ 16 * (m.unit % 2 ^ 10 + b2n m.forced * 2 ^ 11 + b2n m.holdover * 2 ^ 12 +
      b2n m.untimed * 2 ^ 13 + m.cls % 4 * 2 ^ 14))
  | 3 => BitVec.ofNat 32 m.rep
  | 4 => BitVec.ofNat 32 m.p0
  | 5 => BitVec.ofNat 32 m.p1
  | 6 => BitVec.ofNat 32 m.p2
  | _ => BitVec.ofNat 32 m.p3

/-- Record m, where it is available (R530). -/
def MarkLog.record (l : MarkLog) (m : Nat) : Option MarkRec :=
  if l.base ≤ m ∧ l.written ≤ m + 4096 ∧ m < l.written then tblFind l.ring (m % 4096) else none

def State.liveMl (s : State) (cursor o : Nat) : Reg :=
  if 0x8000 ≤ o ∧ o < 0x8800 then
    match s.ml.record (cursor + (o - 0x8000) / 32) with
    | some m => m.word ((o - 0x8000) / 4 % 8)
    | none => 0
  else match o with
  | 0x4 => BitVec.ofNat 32 (b2n s.ml.frozen * 2 ^ 31 + s.ml.frozenCourses % 256)
  | 0x8 => BitVec.ofNat 32 s.ml.missed
  | 0x10 => word32 s.ml.written 0 | 0x14 => word32 s.ml.written 1
  | 0x18 => word32 s.ml.base 0 | 0x1C => word32 s.ml.base 1
  | 0x20 => word32 cursor 0 | 0x24 => word32 cursor 1
  | 0x30 => word32 s.ml.lastTime 0 | 0x34 => word32 s.ml.lastTime 1
  | _ => s.reg (aMl o)

/-! ## The quoin block (Tables 9.9, 10.6, 15.6, 21.8, 21.9, 25.7) -/

/-- Quoin e's copy of Table 21.8, at offset o. -/
def State.liveQuoin (s : State) (e o : Nat) : Reg :=
  let es := List.range 4
  match o with
  | 0x30000 =>
    BitVec.ofNat 32 (bitsNat (es.map (fun x => s.warm x)) * 2 ^ 20 +
      bitsNat (es.map (fun x => hasE s.build x && (s.quoin x).passed)) * 2 ^ 16 + s.successor.getD 0xF * 2 ^ 8 + e * 2 ^ 4 + s.active)
  | 0x30004 => (s.quoin e).beats.setWidth 32
  | 0x3000C => BitVec.ofNat 32 (bitsNat (es.map (fun c => (s.core (coreNo e c)).out)))
  | 0x3001C | 0x30020 => 0
  | _ => s.reg (aQnOf e o)

def State.liveQn (s : State) (o : Nat) : Reg :=
  let w := s.reg o
  let irqCr : Nat := bitsNat ((List.range 72).map (fun n => s.summary (.cr n)))
  match o with
  | 0x20004 =>
    BitVec.ofNat 32 (s.pours.length * 2 ^ 19 + b2n s.paused * 2 ^ 18 + s.risersLeft.length * 2 ^ 8 + s.activeCrus.length)
  | 0x2400C => BitVec.ofNat 32 (b2n (!s.sanitizing.isEmpty) * 2 ^ 31 + s.sanitizing.length) ||| (w &&& 0x30000)
  | 0x2C004 => if s.fld 0x2C000 8 2 = 1 then 0 else w
  | 0x34000 => word32 irqCr 0 | 0x34004 => word32 irqCr 1 | 0x34008 => word32 irqCr 2
  | 0x34010 => BitVec.ofNat 32 (bitsNat ((List.range 24).map (fun k => s.summary (.ks k))))
  | 0x34014 => BitVec.ofNat 32 (bitsNat ((List.range 8).map (fun g => s.summary (.gt g))))
  | 0x38008 => BitVec.ofNat 32 (b2n s.bringupDone * 2 ^ 31 + s.bringupStep) ||| (w &&& 0x10000)
  | _ => w

end Sys2Proof.Machine
end

