-- ==== Sys2Proof/Machine/RegRead.lean ====
section
/-! DEFINITION. Register reads (chapter 02, R568, R570): live words, the reach of each requester, and read shadows. -/

namespace Sys2Proof.Machine

open Sys2Proof

/-- The number of a requester (R32). -/
def reqKey : Requester → Nat
  | .hd h => h.val | .core e c => 128 + coreNo e.val c.val | .cru n => 256 + n.val | .smbus => 400 | .test => 401

def State.req (s : State) (r : Requester) : ReqState := tblGet s.reqs {} (reqKey r)
def State.modReq (s : State) (r : Requester) (f : ReqState → ReqState) : State :=
  { s with reqs := tblSet s.reqs (reqKey r) (f (s.req r)) }

/-- The base-page address of a block address, and the page through which it is accessed (R26). -/
def pageBase (a : Nat) : Nat := a - a / 0x1000 % 4 * 0x1000
def pageOf (a : Nat) : Page := match a / 0x1000 % 4 with | 0 => .base | 1 => .set | 2 => .clr | _ => .tog

/-- The block addresses that host domain h reads through its BAR0 view (Table 26.4). -/
def hdView (h a : Nat) : Bool :=
  let g := h / 16
  let l := h % 16
  a < 0x4000 || (aHmb h 0 ≤ a && a < aHmb h 0x4000) || (aQ g l 0 0 ≤ a && a < aQ g l 0 0x4000) ||
  (aGt g 0x4000 ≤ a && a < aGt g 0x8000) || (aCo 0 ≤ a && a < aCo 0x4000) || (aMl 0 ≤ a && a < aMl 0x10000)

/-- Whether a requester reads a block address (Table 26.3, Table 6.2). -/
def reads : Requester → Nat → Bool
  | .hd h, a => hdView h.val a
  | .cru n, a => aCr n.val 0 ≤ a && a < aCr n.val 0x100000
  | _, _ => true

/-- A location that behaves as reserved: a window the build does not have (R31), and what a RETIRED crucible, a keystone out of service
or an absent ladle or router does not show (R518). -/
def State.hidden (s : State) (w : Win) (o : Nat) : Bool :=
  !winBuilt s.build w ||
  (match w with
  | .cr n => (s.cru n).st == .retired && !retiredReads o
  | .ks k => !s.keyUp k && !keyOutReads o
  | .ld => 0x4000 ≤ o && o < 0x8400 && !hasLd s.build (if 0x8000 ≤ o && o < 0x8200 then (o - 0x8000) / 8 else o % 0x100 / 4)
  | .sp => 0x100000 ≤ o && (0x740000 ≤ o || !hasSite s.build ((o - 0x100000) / 0x10000))
  | _ => false)

/-- The live value of a 32-bit word of quoin 0's copy or of any other window, at base-page offset o, as requester r reads it. -/
def State.liveWin (s : State) (r : Requester) (w : Win) (o : Nat) : Reg :=
  if s.hidden w o then 0
  else if o = 0xFF0 then s.causes w
  else if o = 0xFF8 then 0
  else if o = 0xFFC then BitVec.ofNat 32 (s.rwcBuf.countP (fun e => (winOf e.1).map (·.1) == some w))
  else match w with
  | .qn => if 0x30000 ≤ o ∧ o < 0x34000 then s.liveQuoin 0 o else s.liveQn o
  | .cr n => s.liveCr n o
  | .ks k => s.liveKs k o
  | .gt g => s.liveGt g o
  | .ld => s.liveLd o
  | .sp => s.liveSp o
  | .co => s.liveCo o
  | .ft => s.liveFt o
  | .ml => s.liveMl (s.req r).cursor.toNat o

/-- The live value of the 32-bit word at a base-page address, as requester r reads it. -/
def State.live (s : State) (r : Requester) (a : Nat) : Reg :=
  if 2 ^ 32 ≤ a then (if hasE s.build (a / 2 ^ 32) then s.liveQuoin (a / 2 ^ 32) (a % 2 ^ 32) else 0)
  else match winOf a with
  | none => 0
  | some (w, o) => s.liveWin r w o

/-- The block address that a requester's access reaches: a control core reads the registers of Table 21.8 at its own quoin's copy, every
other requester at the active quoin's (R497). -/
def State.own (s : State) (r : Requester) (a : Nat) : Nat :=
  if 0x30000 ≤ a ∧ a < 0x34000 then
    match r with
    | .core e _ => aQnOf e.val a
    | _ => aQnOf s.active a
  else a

/-- A 32-bit read of one word (R33, R36). -/
def State.readWord (s : State) (r : Requester) (a : Nat) : Reg × State :=
  let b := pageBase a
  match winOf b with
  | none => (0, s)
  | some (w, o) =>
    let (lo, n) := wideOf w o
    let base := winBase w + lo
    let q := s.req r
    if n = 1 then (s.live r (s.own r b), s)
    else if o = lo then
      let words : Tbl (Reg × Page) := (List.range (n - 1)).map (fun i => (i + 1, (s.live r (s.own r (base + 4 * (i + 1))), Page.base)))
      (s.live r (s.own r b), s.modReq r (fun q => { q with rd := some ⟨base, words⟩ }))
    else
      match q.rd with
      | some sh =>
        if sh.base = base then
          match tblFind sh.words ((o - lo) / 4) with
          | some (v, _) => (v, s.modReq r (fun q => { q with rd := some { sh with words := tblDel sh.words ((o - lo) / 4) } }))
          | none => (s.live r (s.own r b), s)
        else (s.live r (s.own r b), s)
      | none => (s.live r (s.own r b), s)

/-- A 64-bit read (R35, R36). -/
def State.readPair (s : State) (r : Requester) (a : Nat) : Word × State :=
  let b := pageBase a
  match winOf b with
  | none => (0, s)
  | some (w, o) =>
    if (wideOf w o).2 = 4 then
      let (lo, s1) := s.readWord r a
      if o = (wideOf w o).1 then ((s.live r (s.own r (b + 4))) ++ lo, s1)
      else let (hi, s2) := s1.readWord r (a + 4); (hi ++ lo, s2)
    else ((s.live r (s.own r (b + 4))) ++ (s.live r (s.own r b)), s)

/-- The cycle counts of a crucible that has been RUNNING grow by free amounts from one read to the next (Tables 4.8 and 4.9 count
ACLK and SCLK cycles; log entry 1). -/
def State.cyclesGo (s : State) (a : Nat) : State :=
  let n := (pageBase a - 0x01000000) / 0x100000
  let o := pageBase a % 0x100000
  if 0x01000000 ≤ pageBase a ∧ pageBase a < 0x05800000 ∧ 0x38 ≤ o ∧ o < 0x4C ∧ s.ran.contains n = true then
    let (x, s1) := s.takeWord
    let (y, s2) := s1.takeWord
    let (z, s3) := s2.takeWord
    ((s3.bump64 (aCr n 0x38) x.toNat).bump64 (aCr n 0x40) y.toNat).bump32 (aCr n 0x48) z.toNat
  else s

/-- A register read of a requester (R29, R33, R35, R36, R568): what it returns, and the shadows after it. -/
def State.regRead (s0 : State) (r : Requester) (a : Nat) (sz : AccSize) : Word × State :=
  let s := if reads r a then s0.cyclesGo a else s0
  let n := match sz with | .b1 => 1 | .b2 => 2 | .b4 => 4 | .b8 => 8
  if !reads r a || a % n ≠ 0 then (0, s)
  else match sz with
  | .b4 => let (v, s1) := s.readWord r a; (v.setWidth 64, s1)
  | .b8 => s.readPair r a
  | _ => (((s.live r (s.own r (pageBase (a / 4 * 4)))).toNat / 2 ^ (8 * (a % 4)) % 2 ^ (8 * n) : Nat), s)

end Sys2Proof.Machine
end

