-- ==== Sys2Proof/Machine/Sfu.lean ====
section
/-! DEFINITION. The special-function unit (R128 to R130, Table 5.6). Where the table gives an error bound, the result is a free value
of the function and its input that lies within the bound (log entry 1): the bound is judged against a value computed to more than 90
bits. -/

namespace Sys2Proof.Machine

open Sys2Proof

/-- The functions of Table 7.11. -/
inductive Sfu where
  | rcp | rsqrt | sqrt | exp2 | exp | log2 | ln | sin | cos | tanh | sigmoid
  deriving DecidableEq, Repr

/-- FN codes of Table 7.11. -/
def Sfu.code : Sfu → Nat
  | .rcp => 0 | .rsqrt => 1 | .sqrt => 2 | .exp2 => 3 | .exp => 4 | .log2 => 5 | .ln => 6 | .sin => 7 | .cos => 8 | .tanh => 9
  | .sigmoid => 10

/-! ## Fixed point with 160 fraction bits -/

/-- One in fixed point. -/
def fxOne : Int := 2 ^ 160

def fxMul (a b : Int) : Int := a * b / 2 ^ 160
def fxDiv (a b : Int) : Int := a * 2 ^ 160 / b

/-- atanh of z = a/b, |z| at most 1/3, by its series. -/
def fxAtanh (z : Int) : Nat → Nat → Int → Int
  | 0, _, _ => 0
  | n + 1, k, p => p / (2 * k + 1 : Nat) + fxAtanh z n (k + 1) (fxMul p (fxMul z z))

/-- ln 2, by 2 atanh (1/3). -/
def fxLn2 : Int := 2 * fxAtanh (fxOne / 3) 60 0 (fxOne / 3)

/-- e^r for 0 ≤ r < 1, by its series. -/
def fxExp (r : Int) : Nat → Nat → Int → Int
  | 0, _, _ => 0
  | n + 1, k, p => p + fxExp r n (k + 1) (fxMul p r / (k + 1 : Nat))

/-- arctan (1/q), by its series. -/
def fxAtanInv (q : Int) : Nat → Nat → Int → Int
  | 0, _, _ => 0
  | n + 1, k, p => (if k % 2 = 0 then p else -p) / (2 * k + 1 : Nat) + fxAtanInv q n (k + 1) (p / (q * q))

/-- pi, by Machin's sum. -/
def fxPi : Int := 16 * fxAtanInv 5 80 0 (fxOne / 5) - 4 * fxAtanInv 239 40 0 (fxOne / 239)

/-- The sine (start k = 1, p = r) or cosine (start k = 0, p = 1) of r, by its series. -/
def fxTrig (r : Int) : Nat → Nat → Int → Int
  | 0, _, _ => 0
  | n + 1, k, p => p + fxTrig r n (k + 2) (-(fxMul p (fxMul r r)) / ((k + 1) * (k + 2) : Nat))

/-- A finite value in fixed point, rounded down. -/
def toFx (v : FV) : Int :=
  match v with
  | .fin neg m e =>
    let k := e + 160
    let x : Int := if 0 ≤ k then (m : Int) * 2 ^ k.toNat else (m : Int) / 2 ^ (-k).toNat
    if neg then -x else x
  | _ => 0

/-- A fixed-point number times a power of two, as a value. -/
def ofFx (x : Int) (k : Int) : FV := .fin (x < 0) x.natAbs (k - 160)

/-- e^y for y in fixed point: y = n ln 2 + r. -/
def expFx (y : Int) : FV :=
  let n := y / fxLn2
  ofFx (fxExp (y - n * fxLn2) 48 0 fxOne) n

/-- ln of a positive value, in fixed point. -/
def lnFx (v : FV) : Int :=
  match v with
  | .fin _ m e =>
    let l := Nat.log2 m
    let x : Int := (m : Int) * 2 ^ 160 / 2 ^ l
    let z := fxDiv (x - fxOne) (x + fxOne)
    ((l : Int) + e) * fxLn2 + 2 * fxAtanh z 60 0 z
  | _ => 0

/-- The exact result to more than 90 bits, for the functions bounded by a value of their own; RCP, SQRT and RSQRT are judged without
one. -/
def Sfu.approx (f : Sfu) (v : FV) : FV :=
  let x := toFx v
  match f with
  | .exp2 => let n := x / fxOne; ofFx (fxExp (fxMul (x - n * fxOne) fxLn2) 48 0 fxOne) n
  | .exp => expFx x
  | .log2 => ofFx (fxDiv (lnFx v) fxLn2) 0
  | .ln => ofFx (lnFx v) 0
  | .sin => let r := x - x / (2 * fxPi) * (2 * fxPi); ofFx (fxTrig r 48 1 r) 0
  | .cos => let r := x - x / (2 * fxPi) * (2 * fxPi); ofFx (fxTrig r 48 0 fxOne) 0
  | .tanh =>
    if 64 * fxOne < x then ofFx fxOne 0 else if x < -(64 * fxOne) then ofFx (-fxOne) 0
    else let t := toFx (expFx (2 * x)); ofFx (fxDiv (t - fxOne) (t + fxOne)) 0
  | .sigmoid =>
    if 128 * fxOne < x then ofFx fxOne 0
    else (let t := expFx x
      match t with
      | .fin n m e => (let d := toFx (t.add (ofFx fxOne 0)); .fin n (m * 2 ^ 160 * 2 ^ 200 / d.toNat) (e - 200))
      | v => v)
  | .rcp =>
    (match v with | .fin neg m e => .fin neg (2 ^ 200 / m) (-e - 200) | v => v)
  | .sqrt =>
    (match v with
    | .fin _ m e => let e2 := (e - 200) / 2; .fin false (Nat.sqrt (m * 2 ^ (e - 2 * e2).toNat)) e2
    | v => v)
  | .rsqrt =>
    (match v with
    | .fin _ m e => let e2 := e / 2; .fin false (Nat.sqrt (2 ^ 400 / (m * 2 ^ (e - 2 * e2).toNat))) (-e2 - 200)
    | v => v)

/-- The error bound of Table 5.6 around an exact result, the larger of the ULP bound and the absolute bound (R129), widened by
2^-40 of itself for the error of the computed result. -/
def Sfu.bound (f : Sfu) (a : FV) : FV :=
  let ulp : Int := max a.log2 (-126) - 23
  let wide (m : Nat) (e : Int) : FV := .fin false (m * (2 ^ 40 + 1)) (e - 40)
  let larger (x y : FV) : FV := if x.leMag y then y else x
  match f with
  | .rcp | .rsqrt | .sqrt => wide 1 ulp
  | .exp2 | .exp => wide 2 ulp
  | .log2 | .ln => larger (wide 2 ulp) (wide 1 (-22))
  | .sin | .cos => wide 1 (-21)
  | .tanh | .sigmoid => larger (wide 2 ulp) (wide 1 (-23))

/-- A result below 2^-126 in magnitude is written as zero of its sign (R128). -/
def sfuFlush (x : Reg) : Reg := if bitsOf x 23 8 = 0 then x &&& 0x80000000 else x

/-- A result within the bound: the free one where it is, else the nearest (log entry 1). -/
def Sfu.within (f : Sfu) (x : Reg) (v : FV) : Reg :=
  let a := f.approx v
  let c := sfuFlush (Config.sfuResult f.code x)
  let near := sfuFlush (round32 .rne a).1
  match (f32 c).add a.neg with
  | .fin n m e => if (FV.fin n m e).leMag (f.bound a) then c else near
  | _ => near

/-- A value's order against the number n / d. -/
def FV.ltRat (v : FV) (n : Int) (d : Nat) : Bool :=
  match v with
  | .nan => false
  | .inf neg => neg
  | .fin neg m e =>
    let x : Int := (if neg then -(m : Int) else m) * d
    if 0 ≤ e then x * 2 ^ e.toNat < n else x < n * 2 ^ (-e).toNat

/-- +infinity, +0 and 1 in FP32. -/
def inf32 (neg : Bool) : Reg := if neg then 0xFF800000 else 0x7F800000

/-- The input as the unit reads it: a subnormal is zero of its sign (R128). -/
def sfuIn (x : Reg) : Reg := sfuFlush x

/-- A special function (Table 5.6). -/
def Sfu.eval (f : Sfu) (x0 : Reg) : Reg × Flags :=
  let x := sfuIn x0
  let v := f32 x
  let neg := bitAt x 31
  let zero := (x &&& 0x7FFFFFFF) = 0
  let r : Reg :=
    if v.isNan then nan32
    else match f with
    | .rcp => if zero then inf32 neg else if 0x7E800000 < (x &&& 0x7FFFFFFF).toNat then (x &&& 0x80000000)
      else f.within x v
    | .rsqrt => if zero then inf32 neg else if neg then nan32 else if v.isInf then 0 else f.within x v
    | .sqrt => if zero then x else if neg then nan32 else if v.isInf then x else f.within x v
    | .exp2 => if v.ltRat (-126) 1 then 0 else if v.ltRat 128 1 then f.within x v else inf32 false
    | .exp => if v.ltRat (-873) 10 then 0 else if v.ltRat 887 10 then f.within x v else inf32 false
    | .log2 | .ln => if zero then inf32 true else if neg then nan32 else if v.isInf then x else f.within x v
    | .sin | .cos =>
      if v.isInf then nan32
      else if toFx v.abs ≤ 1024 * fxPi then f.within x v
      else (let c := sfuFlush (Config.sfuResult f.code x)
        if (c &&& 0x7FFFFFFF).toNat ≤ 0x3F800000 then c else 0)
    | .tanh => if v.isInf then (if neg then 0xBF800000 else 0x3F800000) else f.within x v
    | .sigmoid => if v.ltRat (-873) 10 then 0 else if v.isInf then 0x3F800000 else f.within x v
  (r, { nv := (f32 r).isNan && !v.isNan })

end Sys2Proof.Machine
end

