-- ==== Sys2Proof/Machine/Tile.lean ====
section
/-! DEFINITION. Effects of the tile instructions (R159 to R165) on a crucible, as its MQ0 and MQ1 perform them. -/

namespace Sys2Proof.Machine

open Sys2Proof

/-- What performing the head of a queue gives: it completes, waits (with its progress), or traps. -/
inductive XR where
  | done (s : State)
  | wait (s : State) (i : QItem)
  | trap (code addr : Nat) (s : State)

/-- Operand k of an item, as read at dispatch (R136). -/
def QItem.opv (i : QItem) (k : Nat) : Word := i.sv.getD k 0

/-- Sticky flags of a crucible (R131). -/
def Cru.flag (c : Cru) (fl : Flags) : Cru := { c with mki := { c.mki with astat := c.mki.astat ||| fl.bits } }

/-- The rounding mode of a code that takes no draw (Table 5.4). -/
def rmOf (rm : BitVec 2) : Rm := if rm = 1 then .rz else .rne

/-- The rounding mode of a conversion, with generator g advanced and drawn from where the code is SR (R116, R118). -/
def Cru.rmDraw (c : Cru) (rm : BitVec 2) (g : Nat) : Rm × Cru :=
  if rm = 2 then let x := genNext (c.gen g); (.sr (genDraw x), c.setGen g x) else (rmOf rm, c)

/-- The first trap of a list of checks in order. -/
def firstTrap : List Trap → Trap
  | [] => none
  | some t :: _ => some t
  | none :: ts => firstTrap ts

/-- RANGE of an operand of `rows` rows (R161): recorded at its start. -/
def rngRows (a pitch rows len : Nat) : Trap := if mouldEnd < a + (rows - 1) * pitch + len then some (tRange, low41 a) else none

/-- MISALIGNED of an operand (R161). -/
def misAt (a : Nat) (bad : Bool) : Trap := if bad then some (tMisaligned, low41 a) else none

/-- MOULD_POISON of an operand of rows (R161): the first poisoned word. -/
def State.mpoRows (s : State) (n a pitch rows len : Nat) : Trap :=
  ((List.range rows).findSome? (fun r => s.mouldPoisoned n (a + r * pitch) len)).map (fun x => (tMouldPoison, x))

/-! ## Matrix multiply-accumulate (R159 to R161) -/

/-- The operand pairs of Table 5.3. -/
def pairOk (a b : Nat) : Bool :=
  ([3, 4].contains a && [3, 4].contains b) || ([0x13, 0x14, 0x15, 0x16].contains a && [0x13, 0x14, 0x15, 0x16].contains b) ||
  (a == b && [8, 0x17, 1, 2, 0].contains a)

/-- One element of the accumulator after an MMA (R110 to R112): row i of A, column j of B, the scales. -/
def mmaElem (ta tb k : Nat) (arow btile : Nat) (asc bsc : Nat) (i j : Nat) (t : Reg) : Reg × Flags :=
  let wa := tyWidth ta
  let wb := tyWidth tb
  let ea (x : Nat) := arow / 2 ^ (wa * x) % 2 ^ wa
  let eb (x : Nat) := btile / 2 ^ (wb * (64 * x + j)) % 2 ^ wb
  if ta = 8 then (accInt t ((List.range k).map (fun x => (ea x, eb x))), {})
  else if ta = 0 then accFma t ((List.range k).map (fun x => (BitVec.ofNat 32 (ea x), BitVec.ofNat 32 (eb x))))
  else
    accBlocks t ((List.range (k / 32)).map (fun b =>
      ((List.range 32).map (fun x => (elemValue ta (ea (32 * b + x)), elemValue tb (eb (32 * b + x)))),
       if isMx ta then some (asc / 2 ^ (8 * (i * (k / 32) + b)) % 256, bsc / 2 ^ (8 * (64 * b + j)) % 256) else none)))

/-- mma (R159 to R161). Its B tile stands in the weight buffer of its MU (Table 4.1). -/
def State.effMma (s : State) (n : Nat) (f : FmtD) (i : QItem) : XR :=
  let ta := f.tya.toNat
  let tb := f.tyb.toNat
  let k := if ta = 0x17 then 128 else 64
  let rowa := k * tyWidth ta / 8
  let blen := k * 64 * tyWidth tb / 8
  let a := (i.opv 0).toNat
  let b := (i.opv 1).toNat
  let p0 := bitsOf (i.opv 2) 0 23
  let pitch := if p0 = 0 then rowa else p0
  let asc := bitsOf (i.opv 2) 23 23
  let bsc := b + blen
  let mx := isMx ta
  let sl := 64 * (k / 32)
  match firstTrap [rngRows a pitch 64 rowa, rngRows b 0 1 blen, if mx then rngRows asc 0 1 sl else none, if mx then rngRows bsc 0 1 sl else none,
      misAt a (a % 16 ≠ 0 || p0 % 16 ≠ 0), misAt b (b % 64 ≠ 0), misAt asc (mx && asc % 64 ≠ 0),
      s.mpoRows n a pitch 64 rowa, s.mpoRows n b 0 1 blen, if mx then s.mpoRows n asc 0 1 sl else none,
      if mx then s.mpoRows n bsc 0 1 sl else none] with
  | some (c, x) => .trap c x s
  | none =>
    let wb := s.mouldRead n b blen
    let bt := leNat wb
    let as := if mx then s.mouldNat n asc sl else 0
    let bs := if mx then s.mouldNat n bsc sl else 0
    .done (s.modCru n (fun c =>
      (List.range 64).foldl (fun c r =>
        let old := if f.z then 0 else c.trow (b2n f.mu) f.t.toNat r
        let ar := s.mouldNat n (a + r * pitch) rowa
        let es := (List.range 64).map (fun j => mmaElem ta tb k ar bt as bs r j (lane old j))
        (c.setTrow (b2n f.mu) f.t.toNat r (ofElems 32 (es.map (fun e => e.1.toNat)))).flag (Flags.all (es.map (·.2))))
        { c with wbuf := tblSet c.wbuf (b2n f.mu) wb }))

/-! ## Tile instructions (R162 to R165) -/

/-- tclr: every element +0. -/
def State.effTclr (s : State) (n : Nat) (f : FmtD) (_ : QItem) : XR :=
  .done (s.modCru n (fun c => (List.range 64).foldl (fun c r => c.setTrow (b2n f.mu) f.t.toNat r 0) c))

/-- trow: a row copied into v[s[SB][5:0]] (R163). -/
def State.effTrow (s : State) (n : Nat) (f : FmtD) (i : QItem) : XR :=
  .done (s.modCru n (fun c => c.setV (bitsOf (i.opv 1) 0 6) (c.trow (b2n f.mu) f.t.toNat (bitsOf (i.opv 0) 0 6))))

/-- ttr: the transpose. -/
def State.effTtr (s : State) (n : Nat) (f : FmtD) (_ : QItem) : XR :=
  .done (s.modCru n (fun c =>
    (List.range 64).foldl (fun d r =>
      d.setTrow (b2n f.mu) f.t.toNat r (ofElems 32 ((List.range 64).map (fun j => (lane (c.trow (b2n f.mu) f.t.toNat j) r).toNat)))) c))

/-- scale of R164: the tile element as FP32, from INT32 first converted, times c; NV and OF only. -/
def tsclElem (ty : Nat) (rm : Rm) (x c : Reg) : Reg × Flags :=
  let (y, f1) := if ty = 0x0A then round32 rm (intValue x.toInt) else (x, {})
  let (z, f2) := mulF32 rm y c
  (z, (f1.or f2).matrix)

/-- tscl.c and tscl.r (R164): `byRow` takes c[i], else c[j]. -/
def State.effTscl (s : State) (n : Nat) (byRow : Bool) (f : FmtD) (i : QItem) : XR :=
  let a := (i.opv 0).toNat
  match firstTrap [rngRows a 0 1 256, misAt a (a % 64 ≠ 0), s.mpoRows n a 0 1 256] with
  | some (c, x) => .trap c x s
  | none =>
    let cs := BitVec.ofNat 2048 (s.mouldNat n a 256)
    .done (s.modCru n (fun c =>
      (List.range 64).foldl (fun c r =>
        let old := c.trow (b2n f.mu) f.t.toNat r
        let es := (List.range 64).map (fun j => tsclElem f.tya.toNat (rmOf f.rm) (lane old j) (lane cs (if byRow then r else j)))
        (c.setTrow (b2n f.mu) f.t.toNat r (ofElems 32 (es.map (fun e => e.1.toNat)))).flag (Flags.all (es.map (·.2)))) c))

/-- tld: 64 rows of 256 B from the mould. -/
def State.effTld (s : State) (n : Nat) (f : FmtD) (i : QItem) : XR :=
  let a := (i.opv 0).toNat
  let p0 := bitsOf (i.opv 1) 0 23
  let pitch := if p0 = 0 then 256 else p0
  match firstTrap [rngRows a pitch 64 256, misAt a (a % 64 ≠ 0 || p0 % 64 ≠ 0), s.mpoRows n a pitch 64 256] with
  | some (c, x) => .trap c x s
  | none =>
    .done (s.modCru n (fun c =>
      (List.range 64).foldl (fun c r => c.setTrow (b2n f.mu) f.t.toNat r (BitVec.ofNat 2048 (s.mouldNat n (a + r * pitch) 256))) c))

/-- One row of a tile narrowed for tst (R165, R118): elements in increasing j, element j drawing from generator j. -/
def Cru.tstRow (c : Cru) (f : FmtD) (row : VReg) : List Nat × Cru :=
  (List.range 64).foldl (fun acc j =>
    let (rm, c1) := acc.2.rmDraw f.rm j
    let (x, fl) := narrowTo f.tya.toNat rm f.sat (f32 (lane row j))
    (acc.1 ++ [x], c1.flag fl)) ([], c)

/-- tst (R165): rows written with fresh check bits, in increasing row number. DESIGN CHOICE (log entry 92): where a pitch below the row size
makes rows overlap in the mould, the highest row remains. -/
def State.effTst (s : State) (n : Nat) (f : FmtD) (i : QItem) : XR :=
  let ty := f.tya.toNat
  let w := tyWidth ty
  let len := 64 * w / 8
  let a := (i.opv 0).toNat
  let p0 := bitsOf (i.opv 1) 0 23
  let pitch := if p0 = 0 then len else p0
  match firstTrap [rngRows a pitch 64 len, misAt a (a % 64 ≠ 0 || p0 % 64 ≠ 0)] with
  | some (c, x) => .trap c x s
  | none =>
    .done ((List.range 64).foldl (fun s r =>
      let c := s.cru n
      let row := c.trow (b2n f.mu) f.t.toNat r
      if ty = 0 ∨ ty = 0x0A then s.mouldWrite n (a + r * pitch) (leBytes 256 row.toNat)
      else
        let (xs, c1) := c.tstRow f row
        (s.setCru n c1).mouldWrite n (a + r * pitch) (leBytes len (ofElems w xs).toNat)) s)

/-! ## Static checks (R156, R159, R162, R164, R165) -/

/-- mma: an allowed pair, RM and SAT 0. -/
def badMma (f : FmtD) : Bool := !pairOk f.tya.toNat f.tyb.toNat || f.rm != 0 || f.sat || f.rsv != 0

/-- Format D fields an instruction does not use are 0; the flags say which of SA, SB, SX it uses. -/
def badD (f : FmtD) (sa sb sx ty rm : Bool) : Bool :=
  (!sa && f.sa != 0) || (!sb && f.sb != 0) || (!sx && f.sx != 0) || (!ty && f.tya != 0) || f.tyb != 0 || (!rm && (f.rm != 0 || f.sat)) ||
  f.z || f.rsv != 0

/-- tscl: TYA FP32 or INT32, RM RNE or RZ, SAT 0 (R164). -/
def badTscl (f : FmtD) : Bool := badD f true false false true true || !(f.tya == 0 || f.tya == 0x0A) || 2 ≤ f.rm.toNat || f.sat

/-- tst: Table 7.5. -/
def badTst (f : FmtD) : Bool :=
  badD f true false true true true ||
  (if f.tya == 0 || f.tya == 0x0A then f.rm != 0 || f.sat
   else !([1, 2, 3, 4, 8].contains f.tya.toNat) || f.rm == 3)

end Sys2Proof.Machine
end

