-- ==== Sys2Proof/Machine/Vector.lean ====
section
/-! DEFINITION. Effects of the vector instructions (R172 to R182) on a crucible, as its VQ performs them. -/

namespace Sys2Proof.Machine

open Sys2Proof

/-! ## Arithmetic on lanes -/

/-- v[D].lane[i] := f i on enabled lanes, with the flags of those lanes (R147, R172). -/
def Cru.lanes (c : Cru) (g : Word) (d : Nat) (f : Nat → Reg × Flags) : Cru :=
  let r := (List.range 64).map (fun i => if g.getLsbD i then f i else (lane (c.vreg d) i, {}))
  (c.setV d (ofElems 32 (r.map (fun x => x.1.toNat)))).flag (Flags.all (r.map (·.2)))

/-- One operand, an FP32 operation. -/
def State.effF1 (s : State) (n : Nat) (op : Reg → Reg × Flags) (f : FmtA) (i : QItem) : XR :=
  .done (s.modCru n (fun c => c.lanes i.g f.d.toNat (fun k => op (lane (c.vreg f.a.toNat) k))))

/-- Two operands, an FP32 operation. -/
def State.effF2 (s : State) (n : Nat) (op : Reg → Reg → Reg × Flags) (f : FmtA) (i : QItem) : XR :=
  .done (s.modCru n (fun c => c.lanes i.g f.d.toNat (fun k => op (lane (c.vreg f.a.toNat) k) (lane (c.vreg f.b.toNat) k))))

/-- Three operands, an FP32 operation. -/
def State.effF3 (s : State) (n : Nat) (op : Reg → Reg → Reg → Reg × Flags) (f : FmtA) (i : QItem) : XR :=
  .done (s.modCru n (fun c => c.lanes i.g f.d.toNat (fun k =>
    op (lane (c.vreg f.a.toNat) k) (lane (c.vreg f.b.toNat) k) (lane (c.vreg f.c.toNat) k))))

/-- An integer operation on elements of TY's width (R127, R147). -/
def State.effInt (s : State) (n : Nat) (op : Nat → Nat → Nat → Nat) (f : FmtA) (i : QItem) : XR :=
  let w := tyWidth f.ty.toNat
  .done (s.modCru n (fun c =>
    c.setV f.d.toNat (byElems i.g w (c.vreg f.d.toNat) (fun k => op w (velem w (c.vreg f.a.toNat) k) (velem w (c.vreg f.b.toNat) k)))))

/-- A saturated integer as w bits (vadds, vsubs). -/
def satInt (w : Nat) (i : Int) : Nat := wrap w (max (-(2 ^ (w - 1) : Int)) (min i ((2 ^ (w - 1) : Int) - 1)))

/-- The wrapping, saturating, choosing, logical and shifting operations on w bits (Table 7.8). -/
def iAdd (w a b : Nat) : Nat := (a + b) % 2 ^ w
def iSub (w a b : Nat) : Nat := wrap w ((a : Int) - b)
def iMul (w a b : Nat) : Nat := (a * b) % 2 ^ w
def iAdds (w a b : Nat) : Nat := satInt w (sext w a + sext w b)
def iSubs (w a b : Nat) : Nat := satInt w (sext w a - sext w b)
def iMin (w a b : Nat) : Nat := if sext w b < sext w a then b else a
def iMax (w a b : Nat) : Nat := if sext w a < sext w b then b else a
def iShl (w a b : Nat) : Nat := a * 2 ^ (b % w) % 2 ^ w
def iShr (w a b : Nat) : Nat := a / 2 ^ (b % w)
def iSra (w a b : Nat) : Nat := wrap w (sext w a / 2 ^ (b % w))

/-- A compare into p[D], on enabled lanes (R126). -/
def State.effCmp (s : State) (n : Nat) (op : Cmp) (f : FmtA) (i : QItem) : XR :=
  .done (s.modCru n (fun c =>
    let r (k : Nat) : Bool :=
      let a := lane (c.vreg f.a.toNat) k
      let b := lane (c.vreg f.b.toNat) k
      if f.ty = 0 then cmpF32 op a b else op.holds a.toInt b.toInt
    let old := c.mki.preg f.d.toNat
    let v := BitVec.ofNat 64 ((List.range 64).foldl (fun acc k => acc + b2n (if i.g.getLsbD k then r k else old.getLsbD k) * 2 ^ k) 0)
    { c with mki := c.mki.setP f.d.toNat v }))

/-- vsel: by p[C], read at dispatch, on enabled lanes. DESIGN CHOICE (log entry 21): it moves the bits of a lane unchanged, a NaN among them,
since it produces no result of arithmetic in the sense of R103. -/
def State.effSel (s : State) (n : Nat) (f : FmtA) (i : QItem) : XR :=
  .done (s.modCru n (fun c => c.lanes i.g f.d.toNat (fun k =>
    (if (i.opv 0).getLsbD k then lane (c.vreg f.a.toNat) k else lane (c.vreg f.b.toNat) k, {}))))

/-- vbcast. -/
def State.effBcast (s : State) (n : Nat) (f : FmtA) (i : QItem) : XR :=
  let w := tyWidth f.ty.toNat
  .done (s.modCru n (fun c => c.setV f.d.toNat (byElems i.g w (c.vreg f.d.toNat) (fun _ => (i.opv 0).toNat % 2 ^ w))))

/-- vins: lane s[B] mod 64 := s[A][31:0], when that lane is enabled. -/
def State.effIns (s : State) (n : Nat) (f : FmtA) (i : QItem) : XR :=
  let k := (i.opv 1).toNat % 64
  .done (if i.g.getLsbD k then s.modCru n (fun c => c.setV f.d.toNat (vput (c.vreg f.d.toNat) (32 * k) 32 (i.opv 0).toNat)) else s)

/-- vext: s[D] := lane s[B] mod 64 of v[A], when that lane is enabled. -/
def State.effExt (s : State) (n : Nat) (f : FmtA) (i : QItem) : XR :=
  let k := (i.opv 0).toNat % 64
  .done (if i.g.getLsbD k then
    s.modCru n (fun c => { c with mki := c.mki.setS f.d.toNat ((lane (c.vreg f.a.toNat) k).setWidth 64) }) else s)

/-- One level of the reduction tree (R173). -/
def redLevel (op : Reg → Reg → Reg × Flags) : List Reg → List Reg × Flags
  | a :: b :: t => let (x, f) := op a b; let (xs, fs) := redLevel op t; (x :: xs, f.or fs)
  | l => (l, {})

/-- The reduction tree: six levels over 64 values (R173). -/
def redTree (op : Reg → Reg → Reg × Flags) : Nat → List Reg → Reg × Flags
  | 0, l => (l.getD 0 0, {})
  | k + 1, l => let (l1, f1) := redLevel op l; let (x, f2) := redTree op k l1; (x, f1.or f2)

/-- vrsum and vrmax (R173). -/
def State.effRed (s : State) (n : Nat) (op : Reg → Reg → Reg × Flags) (ident : Reg) (f : FmtA) (i : QItem) : XR :=
  .done (s.modCru n (fun c =>
    let xs := (List.range 64).map (fun k => if i.g.getLsbD k then lane (c.vreg f.a.toNat) k else ident)
    let (x, fl) := redTree op 6 xs
    { (c.flag fl) with mki := (c.flag fl).mki.setS f.d.toNat (x.setWidth 64) }))

/-- vseed (R117). -/
def State.effSeed (s : State) (n : Nat) (_ : FmtA) (i : QItem) : XR :=
  .done (s.modCru n (fun c =>
    (List.range 64).foldl (fun c g => if i.g.getLsbD g then c.setGen g (genSeed (i.opv 0) g) else c) c))

/-! ## Conversions (R174 to R178) -/

/-- The segment of a narrow type that an operand selects (R175). -/
def segIx (w : Nat) (x : Word) : Nat := x.toNat % (32 / w)

/-- vcvt narrowing from FP32 (R175): the enabled elements of the segment, from a source read first. -/
def Cru.cvtNarrow (c : Cru) (f : FmtA) (g : Word) (q : Nat) (src : VReg) : Cru :=
  let w := tyWidth f.ty.toNat
  (List.range 64).foldl (fun c k =>
    let lo := 64 * w * q + w * k
    if g.getLsbD (lo / 32) then
      let (rm, c1) := c.rmDraw f.rm k
      let (x, fl) := narrowTo f.ty.toNat rm f.sat (f32 (lane src k))
      (c1.setV f.d.toNat (vput (c1.vreg f.d.toNat) lo w x)).flag fl
    else c) c

/-- vcvt (R174, R175). -/
def State.effCvt (s : State) (n : Nat) (src : Nat) (f : FmtA) (i : QItem) : XR :=
  .done (s.modCru n (fun c =>
    let va := c.vreg f.a.toNat
    if src = 0x0A then c.lanes i.g f.d.toNat (fun k => round32 (rmOf f.rm) (intValue (lane va k).toInt))
    else if f.ty = 0x0A then
      c.lanes i.g f.d.toNat (fun k => let (x, fl) := narrowTo 0x0A (rmOf f.rm) false (f32 (lane va k)); (BitVec.ofNat 32 x, fl))
    else if f.ty = 0 then
      let w := tyWidth src
      let q := segIx w (i.opv 0)
      c.lanes i.g f.d.toNat (fun k => round32 .rne (elemValue src (vbits va (64 * w * q + w * k) w)))
    else c.cvtNarrow f i.g (segIx (tyWidth f.ty.toNat) (i.opv 0)) va))

/-- One block of vqmx (R122, R123): the scale code and the elements. DESIGN CHOICE (log entry 20): the conversions of its elements set NX and
UF as any conversion does (Table 5.7). -/
def Cru.qmxBlock (c : Cru) (ty : Nat) (rm : BitVec 2) (src : VReg) (b : Nat) : Nat × List Nat × Cru :=
  let vs := (List.range 32).map (fun k => f32 (lane src (32 * b + k)))
  match mxExp ty vs with
  | none =>
    let c1 := (List.range 32).foldl (fun c k => (c.rmDraw rm (32 * b + k)).2) c
    (0xFF, List.replicate 32 0, c1.flag { mxnan := true })
  | some e =>
    let r := (List.range 32).foldl (fun (acc : List Nat × Cru) k =>
      let (m, c1) := acc.2.rmDraw rm (32 * b + k)
      let (x, fl) := narrowTo ty m true ((vs.getD k .nan).scale (-e))
      (acc.1 ++ [x], c1.flag fl)) ([], c)
    ((e + 127).toNat, r.1, r.2)

/-- vqmx (R176). -/
def State.effQmx (s : State) (n : Nat) (f : FmtA) (i : QItem) : XR :=
  .done (s.modCru n (fun c =>
    let ty := f.ty.toNat
    let w := tyWidth ty
    let q := segIx w (i.opv 0)
    let src := c.vreg f.a.toNat
    (List.range 2).foldl (fun c b =>
      let (sc, xs, c1) := c.qmxBlock ty f.rm src b
      let d := vput (c1.vreg f.d.toNat) (64 * w * q + 32 * w * b) (32 * w) (ofElems w xs).toNat
      let c2 := c1.setV f.d.toNat d
      c2.setV f.b.toNat (vput (c2.vreg f.b.toNat) (8 * (2 * q + b)) 8 sc)) c))

/-- vdqmx (R177). -/
def State.effDqmx (s : State) (n : Nat) (f : FmtA) (i : QItem) : XR :=
  .done (s.modCru n (fun c =>
    let ty := f.ty.toNat
    let w := tyWidth ty
    let q := segIx w (i.opv 0)
    let va := c.vreg f.a.toNat
    let sc := c.vreg f.b.toNat
    c.lanes i.g f.d.toNat (fun k => mxValue ty (vbits sc (8 * (2 * q + k / 32)) 8) (vbits va (64 * w * q + w * k) w) (rmOf f.rm))))

/-! ## Vector mould access (R180, R181) -/

/-- The checks of a vector mould access: made when some lane is enabled (R148, R180). -/
def State.vmCheck (s : State) (n a len : Nat) (g : Word) (reads : Bool) : Trap :=
  if g = 0 then none
  else firstTrap [rngRows a 0 1 len, misAt a (a % 64 ≠ 0), if reads then s.mpoRows n a 0 1 len else none]

/-- The effective address of a vector mould access, from its operands read at dispatch. -/
def vmAddr (f : FmtC) (i : QItem) : Nat := effAddr (i.opv 0) (i.opv 1) f.sh f.off

/-- vld. -/
def State.effVld (s : State) (n : Nat) (f : FmtC) (i : QItem) : XR :=
  let a := vmAddr f i
  match s.vmCheck n a 256 i.g true with
  | some (c, x) => .trap c x s
  | none => .done (s.modCru n (fun c => c.lanes i.g f.d.toNat (fun k => (BitVec.ofNat 32 (s.mouldNat n (a + 4 * k) 4), {}))))

/-- vst (R181): a word with both lanes enabled is written fresh, one with one lane enabled is merged. -/
def State.effVst (s : State) (n : Nat) (f : FmtC) (i : QItem) : XR :=
  let a := vmAddr f i
  match s.vmCheck n a 256 i.g false with
  | some (c, x) => .trap c x s
  | none =>
    let v := (s.cru n).vreg f.d.toNat
    .done ((List.range 32).foldl (fun s k =>
      match i.g.getLsbD (2 * k), i.g.getLsbD (2 * k + 1) with
      | true, true => s.mouldWrite n (a + 8 * k) (leBytes 8 (vbits v (64 * k) 64))
      | true, false => s.mouldMerge n (a + 8 * k) (leBytes 4 (vbits v (64 * k) 32))
      | false, true => s.mouldMerge n (a + 8 * k + 4) (leBytes 4 (vbits v (64 * k + 32) 32))
      | false, false => s) s)

/-- vperm: lanes by a table of 64 mould bytes. -/
def State.effPerm (s : State) (n : Nat) (f : FmtC) (i : QItem) : XR :=
  let a := vmAddr f i
  match s.vmCheck n a 64 i.g true with
  | some (c, x) => .trap c x s
  | none =>
    .done (s.modCru n (fun c => c.lanes i.g f.d.toNat (fun k => (lane (c.vreg f.d.toNat) (s.mouldNat n (a + k) 1 % 64), {}))))

/-- vperm.b: bytes by a table of 256 mould bytes. -/
def State.effPermB (s : State) (n : Nat) (f : FmtC) (i : QItem) : XR :=
  let a := vmAddr f i
  match s.vmCheck n a 256 i.g true with
  | some (c, x) => .trap c x s
  | none =>
    .done (s.modCru n (fun c =>
      let old := c.vreg f.d.toNat
      c.setV f.d.toNat (byElems i.g 8 old (fun k => velem 8 old (s.mouldNat n (a + k) 1)))))

/-! ## Special functions (R182) -/

/-- A special function on the enabled lanes. -/
def State.effSfu (s : State) (n : Nat) (fn : Sfu) (f : FmtA) (i : QItem) : XR := s.effF1 n fn.eval f i

/-! ## Static checks (R156, R172, R174, R176, R177, R182) -/

/-- Format A fields of a vector instruction: TY among those allowed, SAT 0, RM RNE or RZ where it rounds and 0 elsewhere, unused
register fields 0. -/
def badV (f : FmtA) (tys : List Nat) (rm useA useB useC : Bool) : Bool :=
  f.rsv != 0 || !tys.contains f.ty.toNat || f.sat || (if rm then 2 ≤ f.rm.toNat else f.rm != 0) ||
  (!useA && f.a != 0) || (!useB && f.b != 0) || (!useC && f.c != 0)

/-- vcvt: Table 7.9. -/
def badCvt (f : FmtA) (fn : BitVec 10) : Bool :=
  let src := fn.toNat
  let ty := f.ty.toNat
  f.rsv != 0 || f.b != 0 ||
  (if [1, 2, 3, 4, 5, 6, 7, 8].contains src && ty == 0 then f.rm != 0 || f.sat
   else if src == 0 && [1, 2, 3, 4, 5, 6, 7, 8].contains ty then f.rm == 3
   else if (src == 0x0A && ty == 0) || (src == 0 && ty == 0x0A) then 2 ≤ f.rm.toNat || f.sat || f.c != 0
   else true)

/-- vqmx: an MX type, RM RNE, RZ or SR, SAT 1, PE 0 (R176, R178). -/
def badQmx (f : FmtA) : Bool := f.rsv != 0 || !isMx f.ty.toNat || f.rm == 3 || !f.sat || f.g.pe

/-- vdqmx: an MX type, RM RNE or RZ, SAT 0, PE 0 (R177, R178). -/
def badDqmx (f : FmtA) : Bool := f.rsv != 0 || !isMx f.ty.toNat || 2 ≤ f.rm.toNat || f.sat || f.g.pe

/-- Format C fields of a vector mould instruction. -/
def badVM (f : FmtC) : Bool := f.rsv != 0

end Sys2Proof.Machine
end

