-- ==== Sys2Proof/Machine/Xq.lean ====
section
/-! DEFINITION. What the transfer engine of a crucible does at the head of XQ (R166 to R171, R195 to R206, R333 to R335, R344, R362,
R363, R370 to R374): loads, stores, pairs, reservations, RAM, cln and cfl, transfers, leaf access and DEVICE accesses. An operation that
must wait stays at the head of XQ and is tried again after each event of its crucible. -/

namespace Sys2Proof.Machine

open Sys2Proof

/-! ## Lines -/

/-- A write of the crucible to a line is posted and its home has not completed it (R171, R199). -/
def State.posted (s : State) (n line : Nat) : Bool :=
  s.outst.any (fun a => a.aid == n && a.line == line && !a.wb &&
    (tblFind (s.cru n).miss line).map (·.tag) != some a.tag)

/-- What an access finds at its line: a copy in the cache, a line that is not installed, a wait (and whether a request stands), a
write that goes to home k, or an error response. -/
inductive Got where
  | hit (x : CLine) (s : State)
  | data (d : LineData) (p : Bool) (s : State)
  | wait (s : State) (sent : Bool)
  | post (k : Nat) (s : State)
  | err (s : State)

/-- A miss entry released. -/
def State.dropMiss (s : State) (n line : Nat) : State := s.modCru n (fun c => { c with miss := tblDel c.miss line })

/-- One hit counted, unless the access waited for its line before. -/
def State.countHit (s : State) (n : Nat) (i : QItem) : State := if i.sent then s else s.bump64 (aCr n 0x4020) 1

/-- A posted write whose PPA has no home in service is refused (R170, R514): WRITE_REFUSED, naming the keystone, or the set where no
keystone has the PPA (log entry 25). `poisons` says that the line is then poisoned (R170). -/
def State.refused (s : State) (line : Nat) (poisons : Bool := false) : State :=
  match s.homeOf line, s.homeUp line with
  | some (k, sl), none =>
    (if poisons then { s with stackPoison := setPut s.stackPoison (2 ^ 30 * k + sl) true } else s).raiseAt 14 (unitKs k)
  | none, _ => s.raiseAt 14 unitSet
  | _, _ => s

/-- A held line as a read finds it: unspecified data where R265 leaves it so (log entry 1). -/
def State.relied (s : State) (line : Nat) (x : CLine) : CLine :=
  if !s.unspec.isEmpty && s.unspec.contains (64 * line / 2 ^ 28) then { x with data := Config.freeLine (s.free + 2 ^ 64 * line) } else x

/-- The line of a read (Table 14.2, R334, R346, R347): allocating where `alloc` and the cache installs. -/
def State.lineRead (s : State) (n line : Nat) (alloc resv : Bool) (i : QItem) : Got :=
  let c := s.cru n
  let inst := alloc && c.installs
  if c.cst = .invalidating || s.posted n line || (match tblFind c.wb line with | some e => !e.keep | none => false) then .wait s i.sent
  else
    match tblFind c.miss line with
    | some e =>
      if e.err then .err (s.dropMiss n line)
      else
        match e.got with
        | some (_, d, p) => if e.noInst then .data d p (s.dropMiss n line) else .wait s true
        | none => .wait (s.modCru n (fun c => { c with miss := tblSet c.miss line { e with rd := true } })) true
    | none =>
      match tblFind c.cache line with
      | some x => .hit (s.relied line x) (s.countHit n i)
      | none =>
        match s.homeUp line with
        | none => .err s
        | some k =>
          match s.openMiss n line k (if inst then .rds else .rdc) (!inst) false resv with
          | some s1 => .wait s1 true
          | none => .wait s i.sent

/-- The line of a write (Table 14.2): a copy in D or X, or a write to the home where nothing is installed. -/
def State.lineWrite (s : State) (n line : Nat) (alloc : Bool) (i : QItem) : Got :=
  let c := s.cru n
  if c.cst = .invalidating || s.posted n line || (tblFind c.wb line).isSome then .wait s i.sent
  else
    match tblFind c.miss line with
    | some e => if e.err then .err (s.dropMiss n line) else .wait s true
    | none =>
      match tblFind c.cache line with
      | some x =>
        if x.st = .d ∨ x.st = .x then .hit x (s.countHit n i)
        else
          (match s.homeUp line with
          | none => .err s
          | some k => match s.openMiss n line k .upg false false with
            | some s1 => .wait (s1.countHit n i) true
            | none => .wait s i.sent)
      | none =>
        match s.homeUp line with
        | none => .err s
        | some k =>
          if alloc && c.installs then
            (match s.openMiss n line k .rdx false false with
            | some s1 => .wait s1 true
            | none => .wait s i.sent)
          else .post k s

/-- The words of a line that an access of `len` bytes at offset `off` covers, and those it covers whole. -/
def touched (off len : Nat) : BitVec 8 :=
  BitVec.ofNat 8 ((List.range 8).foldl (fun acc w => acc + b2n (off < 8 * w + 8 && 8 * w < off + len) * 2 ^ w) 0)
def covered (off len : Nat) : BitVec 8 :=
  BitVec.ofNat 8 ((List.range 8).foldl (fun acc w => acc + b2n (off ≤ 8 * w && 8 * w + 8 ≤ off + len) * 2 ^ w) 0)

/-- The first marked word among those an access touches. -/
def firstMark (marks : BitVec 8) (off len : Nat) : Option Nat :=
  (List.range 8).find? (fun w => (marks &&& touched off len).getLsbD w)

/-- A copy with bytes written: it becomes D, and words written whole lose their marks (R336). -/
def CLine.put (x : CLine) (off len v : Nat) : CLine :=
  { x with st := .d, data := setBits x.data (8 * off) (8 * len) v, poison := x.poison &&& ~~~(covered off len) }

/-- The end of an agent's home-held reservation by its own write to the granule (Table 15.4). -/
def State.endOwnHome (s : State) (aid line : Nat) : State :=
  let g := 2 ^ s.granLog
  { s with kss := s.kss.map (fun e => (e.1, { e.2 with resvs := e.2.resvs.filter (fun r => !(r.1 == aid && r.2 / 64 / g == line / g)) })) }

/-- The end of a crucible's reservations by its own write to a line (Table 15.4): cache-held on the line, home-held on the granule. -/
def State.endOwn (s : State) (n line : Nat) : State :=
  (s.modCru n (fun c => { c with resv := if c.resv = some line then none else c.resv })).endOwnHome n line

/-- The byte mask of an access. -/
def byteMask (off len : Nat) : BitVec 64 := BitVec.ofNat 64 ((2 ^ len - 1) * 2 ^ off)

/-- A WrP of some bytes of a line (R281); `resv` marks a home-held STCOND (R372). -/
def partMsg (aid k line off len v : Nat) (resv : Bool) : Msg :=
  { kind := .wrp, aid := aid, home := k, line := line, data := BitVec.ofNat 512 (v * 2 ^ (8 * off)), mask := byteMask off len, resv := resv }

/-- A posted write of an agent to a home (WrF, WrP, Ram), when it holds a credit (R286). -/
def State.post (s : State) (m : Msg) : Option State :=
  if !s.hasCredit m.aid m.home then none
  else
    let (tag, s1) := s.newTag
    some ((s1.issue { aid := m.aid, home := m.home, line := m.line, store := true, tag := tag, ram := m.kind == .ram }).send
      { m with tag := tag })

/-- The crucible's own copy of a line acted on as cfl (R203, R344): the state in which no copy and no write-back of it stands, or the
state in which it must wait. -/
def State.selfFlush (s : State) (n line : Nat) : Except State State :=
  let c := s.cru n
  if (tblFind c.wb line).isSome || (tblFind c.miss line).any (fun e => !e.noInst) then .error s
  else
    match tblFind c.cache line with
    | none => .ok s
    | some x =>
      if x.st ≠ .s ∧ s.canWb n line = false then .error s
      else
        let s1 := s.evictLine n line x false
        if (tblFind (s1.cru n).wb line).isSome then .error s1 else .ok s1

/-! ## Scalar loads and stores -/

/-- RANGE, MISALIGNED and FLASK of a crucible's pool access. -/
def State.cruCheck (s : State) (n a size : Nat) (right : Right) (dev : Bool) : Trap :=
  if 2 ^ 41 ≤ a then some (tRange, low41 a)
  else if a % size ≠ 0 then some (tMisaligned, a)
  else match s.flaskCheck (s.cru n).mki.flask right dev a size with
    | some b => some (tFlask, b)
    | none => none

/-- Whether a pool byte lies in a DEVICE segment of the bound flask. -/
def State.cruDevice (s : State) (n a : Nat) : Bool :=
  match s.segAt (s.cru n).mki.flask a with | some g => g.device | none => false

/-- A loaded value extended (Table 8.6). -/
def extendTo (size : Nat) (sgn : Bool) (v : Nat) : Word := if sgn then BitVec.ofInt 64 (sext (8 * size) v) else BitVec.ofNat 64 v

/-- Write an s register of a crucible. -/
def State.cruS (s : State) (n d : Nat) (v : Word) : State := s.modCru n (fun c => { c with mki := c.mki.setS d v })

/-- Data of a load delivered: POOL_POISON when a word it takes is marked (R196), else `k` with the bytes. -/
def loadOf (s : State) (line : Nat) (d : LineData) (marks : BitVec 8) (off len : Nat) (k : Nat → XR) : XR :=
  match firstMark marks off len with
  | some w => .trap tPoolPoison (64 * line + 8 * w) s
  | none => k (bitsOf d (8 * off) (8 * len))

/-- A NORMAL load of up to 16 bytes: `dst` writes the value. -/
def State.loadNormal (s : State) (n a len : Nat) (i : QItem) (dst : State → Nat → XR) : XR :=
  match s.lineRead n (a / 64) true false i with
  | .hit x s1 => loadOf s1 (a / 64) x.data x.poison (a % 64) len (dst s1)
  | .data d p s1 => loadOf s1 (a / 64) d (poisonMarks p) (a % 64) len (dst s1)
  | .wait s1 b => .wait s1 { i with sent := b }
  | .post _ s1 => .done s1
  | .err s1 => .trap tMemError a s1

/-- A DEVICE load (R363): the crucible's own copy is flushed, then the line is read without installing it. -/
def State.loadDevice (s : State) (n a len : Nat) (i : QItem) (resv : Bool) (dst : State → Nat → XR) : XR :=
  match s.selfFlush n (a / 64) with
  | .error s1 => .wait s1 { i with sent := true }
  | .ok s0 =>
    match s0.lineRead n (a / 64) false resv i with
    | .data d p s1 => loadOf s1 (a / 64) d (poisonMarks p) (a % 64) len (dst s1)
    | .hit x s1 => loadOf s1 (a / 64) x.data x.poison (a % 64) len (dst s1)
    | .wait s1 b => .wait s1 { i with sent := b }
    | .post _ s1 => .done s1
    | .err s1 => .trap tMemError a s1

/-- ldb to ldd (R195). -/
def State.effLoad (s : State) (n size : Nat) (sgn : Bool) (f : FmtC) (i : QItem) : XR :=
  let a := vmAddr f i
  match s.cruCheck n a size .read true with
  | some (c, x) => .trap c x s
  | none =>
    let dst (s : State) (v : Nat) : XR := .done (s.cruS n f.d.toNat (extendTo size sgn v))
    if s.cruDevice n a then s.loadDevice n a size i false dst else s.loadNormal n a size i dst

/-- ldp (R198): one 16-byte access in NORMAL memory, two 8-byte accesses in a DEVICE segment, the lower first and the higher as soon as
it has completed (R362). The first half of the latter is kept with the operands until both have come. -/
def State.effLdp (s : State) (n : Nat) (f : FmtC) (i : QItem) : XR :=
  let a := vmAddr f i
  match s.cruCheck n a 16 .read true with
  | some (c, x) => .trap c x s
  | none =>
    let both (s : State) (lo hi : Nat) : State := (s.cruS n f.d.toNat (BitVec.ofNat 64 lo)).cruS n (f.d.toNat + 1) (BitVec.ofNat 64 hi)
    if s.cruDevice n a then
      let upper (s : State) (i : QItem) : XR := s.loadDevice n (a + 8) 8 i false (fun s v => .done (both s ((i.opv 2).toNat) v))
      if i.prog = 0 then
        s.loadDevice n a 8 i false (fun s v => upper s { i with prog := 1, sent := false, sv := i.sv ++ [BitVec.ofNat 64 v] })
      else upper s i
    else s.loadNormal n a 16 i (fun s v => .done (both s (v % 2 ^ 64) (v / 2 ^ 64)))

/-- A line of a posted transfer that ends with an error response: refused where its home is out of service, and the line is then poisoned
(R170, R514); declared dead otherwise (R366). -/
def State.storeErr (s : State) (m : Msg) : State :=
  if (s.homeUp m.line).isNone then s.refused m.line true else s.deadWrite m

/-- A scalar store that ends with an error response: MEM_ERROR where its PPA has no home in service, before it issues (R239, R514; log
entry 93); declared dead otherwise (R366). -/
def storeEnd (s : State) (a : Nat) (m : Msg) (next : State → XR) : XR :=
  if (s.homeUp m.line).isNone then .trap tMemError a s else next (s.deadWrite m)

/-- A NORMAL store of up to 16 bytes (R197). -/
def State.storeNormal (s : State) (n a len v : Nat) (i : QItem) : XR :=
  let line := a / 64
  match s.lineWrite n line true i with
  | .hit x s1 => .done ((s1.modCru n (fun c => c.setLine line (x.put (a % 64) len v))).endOwn n line)
  | .post k s1 =>
    (match s1.post (partMsg n k line (a % 64) len v false) with
    | some s2 => .done (s2.endOwn n line)
    | none => .wait s1 i)
  | .wait s1 b => .wait s1 { i with sent := b }
  | .data _ _ s1 => .done s1
  | .err s1 => storeEnd s1 a (partMsg n 0 line (a % 64) len v false) .done

/-- A DEVICE store (R362, R363): it completes with the home's Cmp. -/
def State.storeDevice (s : State) (n a len v : Nat) (i : QItem) (next : State → XR) : XR :=
  let line := a / 64
  if i.sent then (if s.posted n line then .wait s i else next s)
  else
    match s.selfFlush n line with
    | .error s1 => .wait s1 i
    | .ok s0 =>
      match s0.lineWrite n line false i with
      | .post k s1 =>
        (match s1.post (partMsg n k line (a % 64) len v false) with
        | some s2 => .wait (s2.endOwn n line) { i with sent := true }
        | none => .wait s1 i)
      | .wait s1 _ => .wait s1 i
      | .err s1 => storeEnd s1 a (partMsg n 0 line (a % 64) len v false) next
      | .hit _ s1 => next s1
      | .data _ _ s1 => next s1

/-- stb to std. -/
def State.effStore (s : State) (n size : Nat) (f : FmtC) (i : QItem) : XR :=
  let a := vmAddr f i
  match s.cruCheck n a size .write true with
  | some (c, x) => .trap c x s
  | none =>
    let v := (i.opv 2).toNat % 2 ^ (8 * size)
    if s.cruDevice n a then s.storeDevice n a size v i .done else s.storeNormal n a size v i

/-- stp (R198). -/
def State.effStp (s : State) (n : Nat) (f : FmtC) (i : QItem) : XR :=
  let a := vmAddr f i
  match s.cruCheck n a 16 .write true with
  | some (c, x) => .trap c x s
  | none =>
    let lo := (i.opv 2).toNat
    let hi := (i.opv 3).toNat
    if s.cruDevice n a then
      let upper (s : State) (i : QItem) : XR := s.storeDevice n (a + 8) 8 hi i .done
      if i.prog = 0 then s.storeDevice n a 8 lo i (fun s => upper s { i with prog := 1, sent := false }) else upper s i
    else s.storeNormal n a 16 (lo + 2 ^ 64 * hi) i

/-! ## DEVICE registers -/

/-- The checks of a register access of `size` bytes (R138 to R140): `reach` says whether the profile reaches it. -/
def devCheck (a size : Nat) (reach : Bool) : Trap :=
  if 2 ^ 32 ≤ a then some (tRange, low41 a) else if a % size ≠ 0 then some (tMisaligned, a)
  else if !reach then some (tDevice, a) else none

/-- ldwd and lddd of a crucible: its own window only (Table 6.2). -/
def State.effLdDev (s : State) (n : Fin 72) (sz : AccSize) (f : FmtC) (i : QItem) : XR :=
  let a := vmAddr f i
  match devCheck a (if sz = .b8 then 8 else 4) (reads (.cru n) a) with
  | some (c, x) => .trap c x s
  | none => let (v, s1) := s.regRead (.cru n) a sz; .done (s1.cruS n.val f.d.toNat v)

/-! ## Reservations (R200, R201, R370 to R374) -/

/-- Whether a crucible's reservations are cache-held (R370). -/
def State.cacheHeld (s : State) (n : Nat) : Bool := s.fld 0x2C000 8 2 == 1 && (s.cru n).cst == .enabled

/-- Whether an agent holds a home-held reservation. -/
def State.holdsHome (s : State) (aid : Nat) : Bool := s.kss.any (fun e => (tblFind e.2.resvs aid).isSome)

/-- ldres. -/
def State.effLdres (s : State) (n : Nat) (f : FmtC) (i : QItem) : XR :=
  let a := vmAddr f i
  match s.cruCheck n a 8 .read true with
  | some (c, x) => .trap c x s
  | none =>
    let get (s : State) (v : Nat) : State := s.cruS n f.d.toNat (BitVec.ofNat 64 v)
    if s.cruDevice n a then s.loadDevice n a 8 i false (fun s v => .done (get s v))
    else if s.cacheHeld n then
      s.loadNormal n a 8 i (fun s v => .done (((get s v).endResvs n).modCru n (fun c => { c with resv := some (a / 64) })))
    else s.loadDevice n a 8 i true (fun s v => .done ((get s v).modCru n (fun c => { c with resv := none })))

/-- In phase NORMAL a STCOND may fail although nothing has ended its reservation: a free choice (R375; log entry 1). -/
def State.spurious (s : State) : Bool × State := if s.fld 0x2C000 8 2 = 1 then s.takeBool else (false, s)

/-- The home-held reservations of an agent at every home but k end: its STCOND ends each reservation it holds (Table 15.4). -/
def State.endResvsBut (s : State) (aid k : Nat) : State :=
  { s with kss := s.kss.map (fun e => if e.1 = k then e else (e.1, { e.2 with resvs := tblDel e.2.resvs aid })) }

/-- stcond: s[IDX] := 0 on success, 1 on failure. One whose access is declared dead fails (R367). -/
def State.effStcond (s : State) (n : Nat) (f : FmtC) (i : QItem) : XR :=
  let a := (i.opv 0 + f.off.signExtend 64).toNat
  let line := a / 64
  let ends (s : State) (ok : Bool) : XR :=
    .done (((s.cruS n f.idx.toNat (if ok then 0 else 1)).endResvs n).modCru n (fun c => { c with resv := none, condGot := none }))
  match s.cruCheck n a 8 .write true with
  | some (c, x) => .trap c x s
  | none =>
    let c := s.cru n
    if s.cruDevice n a then ends s false
    else if i.prog = 1 then
      match c.condGot with
      | some ok => ends s ok
      | none => if s.outst.any (fun a => a.aid == n && a.line == line && a.store && !a.wb) then .wait s i else ends s false
    else if s.cacheHeld n && !s.holdsHome n then
      if c.resv ≠ some line then
        (match tblFind c.miss line with
        | some e => if e.err then ends (s.dropMiss n line) false else .wait s { i with sent := true }
        | none => ends s false)
      else
        match s.lineWrite n line true i with
        | .hit x s1 =>
          let (b, s2) := s1.spurious
          if b then ends s2 false
          else ends ((s2.modCru n (fun c => c.setLine line (x.put (a % 64) 8 (i.opv 1).toNat))).endOwn n line) true
        | .wait s1 b => .wait s1 { i with sent := b }
        | .err s1 => ends s1 false
        | .post _ s1 => ends s1 false
        | .data _ _ s1 => ends s1 false
    else
      match s.selfFlush n line with
      | .error s1 => .wait s1 i
      | .ok s0 =>
        match s0.lineWrite n line false i with
        | .post k s1 =>
          let (b, s2) := s1.spurious
          if b then ends s2 false
          else
            (match s2.post (partMsg n k line (a % 64) 8 (i.opv 1).toNat true) with
            | some s3 => .wait ((s3.endResvsBut n k).modCru n (fun c => { c with condGot := none })) { i with prog := 1, sent := true }
            | none => .wait s2 i)
        | .wait s1 _ => .wait s1 i
        | .err s1 => ends s1 false
        | .hit _ s1 => ends s1 false
        | .data _ _ s1 => ends s1 false

/-! ## RAM, cln and cfl (R202, R203) -/

/-- RAM: operands s[D], the mould address, and the pool line. The home takes the crucible's own copy back by its snoop (R324). -/
def State.effRam (s : State) (n : Nat) (f : FmtC) (fn : BitVec 4) (i : QItem) : XR :=
  let a := vmAddr f i
  let m := (i.opv 2).toNat
  let poolRng : Trap := if 2 ^ 41 ≤ a then some (tRange, low41 a) else none
  let flk : Trap := match s.flaskCheck (s.cru n).mki.flask .write false a 64 with | some b => some (tFlask, b) | none => none
  match firstTrap [rngRows m 0 1 64, poolRng, misAt m (m % 64 ≠ 0), misAt a (a % 64 ≠ 0), flk, s.mpoRows n m 0 1 64] with
  | some (c, x) => .trap c x s
  | none =>
    let line := a / 64
    match s.homeUp line with
    | none => .done (s.refused line)
    | some k =>
      if s.posted n line then .wait s i
      else
        match s.post { kind := .ram, aid := n, home := k, line := line, data := BitVec.ofNat 512 (s.mouldNat n m 64), op := fn } with
        | some s1 => .done (s1.endOwn n line)
        | none => .wait s i

/-- cln and cfl (R203, R344): a write-back ends with its Cmp, or with its declaration as dead (R365); where the home is out of service
nothing is sent (R514). -/
def State.effLine (s : State) (n : Nat) (flush : Bool) (f : FmtC) (i : QItem) : XR :=
  let a := vmAddr f i
  let line := a / 64
  let chk : Trap :=
    if 2 ^ 41 ≤ a then some (tRange, low41 a)
    else match s.flaskCheck (s.cru n).mki.flask .any true a 1 with | some b => some (tFlask, b) | none => none
  match chk with
  | some (c, x) => .trap c x s
  | none =>
    let c := s.cru n
    if (tblFind c.wb line).isSome || (tblFind c.miss line).any (fun e => !e.noInst) || c.cst = .invalidating then .wait s { i with sent := true }
    else
      match tblFind c.cache line with
      | none => .done s
      | some x =>
        if i.sent && !flush && x.st ≠ .d then .done s
        else if (x.st = .d || (flush && x.st ≠ .s)) && !s.canWb n line then .wait s i
        else
          let s0 := s.countHit n i
          let s1 := if flush then s0.evictLine n line x false else s0.cleanLine n line x false
          if x.st = .d && (tblFind (s1.cru n).wb line).isSome then .wait s1 { i with sent := true } else .done s1

/-! ## Transfers (R166 to R171, R204, R205) -/

/-- A transfer's rows: pool and mould start, pitches in bytes, lines of a row, rows, and whether it streams. -/
structure Xfer where
  pool : Nat
  mould : Nat
  pp : Nat
  mp : Nat
  len : Nat
  rows : Nat
  stream : Bool
  deriving DecidableEq, Repr

def Xfer.total (x : Xfer) : Nat := x.len * x.rows
/-- Pool and mould address of line j, in the transfer's own order. -/
def Xfer.pa (x : Xfer) (j : Nat) : Nat := x.pool + j / x.len * x.pp + 64 * (j % x.len)
def Xfer.ma (x : Xfer) (j : Nat) : Nat := x.mould + j / x.len * x.mp + 64 * (j % x.len)

/-- Whether line j lies where an earlier row of the transfer has a line, for rows `pitch` bytes apart (R168). -/
def Xfer.over (x : Xfer) (pitch j : Nat) : Bool := decide (x.len ≤ j) && decide (64 * (j % x.len) + pitch < 64 * x.len)

/-- The transfer of xld and xst (Table 7.7). -/
def xferOf (stream : Bool) (i : QItem) : Xfer :=
  let w := i.opv 2
  { pool := (i.opv 0).toNat, mould := (i.opv 1).toNat, pp := 64 * bitsOf w 24 20, mp := 64 * bitsOf w 44 20, len := bitsOf w 0 12,
    rows := bitsOf w 12 12, stream := stream }

/-- The checks of R167. -/
def State.xferCheck (s : State) (n : Nat) (x : Xfer) (right : Right) : Trap :=
  let poolEnd := x.pool + (x.rows - 1) * x.pp + 64 * x.len
  let flk : Trap := ((List.range x.rows).findSome? (fun r =>
    s.flaskCheck (s.cru n).mki.flask right false (x.pool + r * x.pp) (64 * x.len))).map (fun b => (tFlask, b))
  firstTrap [rngRows x.mould x.mp x.rows (64 * x.len), if 2 ^ 41 < poolEnd then some (tRange, low41 x.pool) else none,
    misAt x.mould (x.mould % 64 ≠ 0), misAt x.pool (x.pool % 64 ≠ 0), flk]

/-- Open miss entries for the lines from line j on, in the transfer's order, as far as entries and credits allow (R335). It goes no
further than a line that cannot be asked for yet. -/
def State.ahead (s : State) (n : Nat) (x : Xfer) (write : Bool) (j : Nat) : Nat → State
  | 0 => s
  | fuel + 1 =>
    if x.total ≤ j then s
    else
      let line := x.pa j / 64
      let c := s.cru n
      if (tblFind c.miss line).isSome then s.ahead n x write (j + 1) fuel
      else if (tblFind c.wb line).isSome || s.posted n line then s
      else
        let inst := !x.stream && c.installs
        let need : Option MsgKind := match tblFind c.cache line with
          | some y => if write && (y.st = .s || y.st = .l) then some .upg else none
          | none => if write then (if inst then some .rdx else none) else some (if inst then .rds else .rdc)
        match need, s.homeUp line with
        | some kd, some k =>
          (match s.openMiss n line k kd (kd == .rdc) false with
          | some s1 => s1.ahead n x write (j + 1) fuel
          | none => s)
        | _, _ => s.ahead n x write (j + 1) fuel

/-- A transfer waits for its current line: once that line's request stands, those of later lines are opened (R335), unless the cache is
being invalidated (R339). -/
def State.xferWait (s : State) (n : Nat) (x : Xfer) (write sent : Bool) (i : QItem) : XR :=
  .wait (if sent && (s.cru n).cst != .invalidating then s.ahead n x write (i.prog + 1) x.total else s) { i with sent := sent }

/-- The poison marks of a line whose bytes come from `new` where `w` has a 1, and stay elsewhere. -/
def mixMarks (old new : BitVec 8) (w : Word) : BitVec 8 :=
  BitVec.ofNat 8 ((List.range 8).foldl (fun acc k =>
    let b := bitsOf w (8 * k) 8
    acc + b2n (b != 0 && new.getLsbD k || b != 255 && old.getLsbD k) * 2 ^ k) 0)

/-- Line j of a transfer arrives in the mould. Where rows overlap there, each byte keeps an earlier row's data or takes this one's: which is
not specified (R168), a free choice (log entry 92). -/
def State.mouldRow (s : State) (n : Nat) (x : Xfer) (j : Nat) (d : LineData) (p : BitVec 8) : State :=
  let m := x.ma j
  if x.over x.mp j then
    let (w, s1) := s.takeWord
    s1.mouldLine n m (mergeLine (BitVec.ofNat 512 (s1.mouldNat n m 64)) d w) (mixMarks (s1.mouldMarks n m) p w)
  else s.mouldLine n m d p

/-- Lines of a transfer from the pool into the mould, one after another. -/
def State.xferIn (s : State) (n : Nat) (x : Xfer) (i : QItem) : Nat → XR
  | 0 => .wait s i
  | fuel + 1 =>
    if x.total ≤ i.prog then .done s
    else
      let a := x.pa i.prog
      let go (s1 : State) (d : LineData) (p : BitVec 8) : XR :=
        (s1.mouldRow n x i.prog d p).xferIn n x { i with prog := i.prog + 1, sent := false } fuel
      match s.lineRead n (a / 64) (!x.stream) false i with
      | .hit y s1 => go s1 y.data y.poison
      | .data d p s1 => go s1 d (poisonMarks p)
      | .wait s1 b => s1.xferWait n x false b i
      | .post _ s1 => .done s1
      | .err s1 => .trap tMemError a s1

/-- The data that line j of a transfer brings to the pool, and whether it takes a poisoned mould word (R170). Where rows overlap in the pool
the line takes each of its bytes from one of the rows that have it: which is not specified (R168), a free choice (log entry 92). -/
def State.poolRow (s : State) (n : Nat) (x : Xfer) (j : Nat) : (LineData × Bool) × State :=
  if x.over x.pp j then
    let (v, s1) := s.takeNat
    let r := j / x.len
    let c := j % x.len
    let back := if x.pp = 0 then r else min r ((64 * x.len - 64 * c - 1) / x.pp)
    let src (b : Nat) : Nat :=
      let k := v / 4096 ^ b % 4096 % (back + 1)
      x.mould + (r - k) * x.mp + 64 * c + k * x.pp + b
    ((BitVec.ofNat 512 (leNat ((List.range 64).map (fun b => (s1.mouldRead n (src b) 1).headD 0))),
      (List.range 64).any (fun b => s1.mouldPoison.contains (mouldWord n (src b)))), s1)
  else ((BitVec.ofNat 512 (s.mouldNat n (x.ma j) 64), s.mouldMarks n (x.ma j) != 0), s)

/-- Lines of a transfer from the mould to the pool: a line that takes a poisoned mould word becomes a poisoned line (R170). -/
def State.xferOut (s : State) (n : Nat) (x : Xfer) (i : QItem) : Nat → XR
  | 0 => .wait s i
  | fuel + 1 =>
    if x.total ≤ i.prog then .done s
    else
      let line := x.pa i.prog / 64
      let ((d, bad), s0) := s.poolRow n x i.prog
      let next (s1 : State) : XR := s1.xferOut n x { i with prog := i.prog + 1, sent := false } fuel
      match s0.lineWrite n line (!x.stream) i with
      | .hit y s1 =>
        next ((s1.modCru n (fun c => c.setLine line { y with st := .d, data := d, poison := poisonMarks bad })).endOwn n line)
      | .post k s1 =>
        (match s1.post { kind := .wrf, aid := n, home := k, line := line, data := d, poison := bad } with
        | some s2 => next (s2.endOwn n line)
        | none => .wait s1 i)
      | .wait s1 b => s1.xferWait n x true b i
      | .data _ _ s1 => next s1
      | .err s1 => next (s1.storeErr { kind := .wrf, aid := n, home := 0, line := line, data := d, poison := bad })

/-- xld, xldn, xst and xstn. -/
def State.effXfer (s : State) (n : Nat) (out stream : Bool) (_ : FmtD) (i : QItem) : XR :=
  let x := xferOf stream i
  if x.total = 0 then .done s
  else
    match (if i.prog = 0 && !i.sent then s.xferCheck n x (if out then .write else .read) else none) with
    | some (c, a) => .trap c a s
    | none => if out then s.xferOut n x i (x.total + 1) else s.xferIn n x i (x.total + 1)

/-- The stream a leaf instruction names, when it belongs to the pour that started the crucible (R205). -/
def State.leafOf (s : State) (n : Nat) (num : Word) : Option Stream :=
  match (s.cru n).charge with
  | none => none
  | some (p, _) =>
    match tblFind s.streams (bitsOf num 0 18) with
    | some st => if st.st = .bound ∧ st.pour = p then some st else none
    | none => none

/-- Read leaf and write leaf of a stream (R214). -/
def Stream.readLeaf (t : Stream) : Nat := if t.cur then t.leafB else t.leafA
def Stream.writeLeaf (t : Stream) : Nat := if t.cur then t.leafA else t.leafB

/-- lfld, lfst and lfldw with their streaming forms (R204, R205): `wl` names the write leaf. The stream is resolved once, before the
first access; a transfer that has begun keeps the leaf's address with its operands. -/
def State.effLeaf (s : State) (n : Nat) (out wl stream : Bool) (f : FmtC) (i : QItem) : XR :=
  let len := bitsOf f.off 0 17
  let off := (i.opv 1).toNat
  let m := (i.opv 2).toNat
  if len = 0 then .done s
  else
    let started := i.prog != 0 || i.sent
    let t := if started then none else s.leafOf n (i.opv 0)
    let base := if started then (i.opv 3).toNat else match t with | some t => if wl then t.writeLeaf else t.readLeaf | none => 0
    let x : Xfer := { pool := base + off, mould := m, pp := 0, mp := 0, len := len, rows := 1, stream := stream }
    let own : Trap := if t.isNone then some (tFlask, 0) else none
    let size := match t with | some t => 64 * t.size | none => 0
    let inside : Trap := if size < off + 64 * len then some (tFlask, base + size) else none
    let flk : Trap := (s.flaskCheck (s.cru n).mki.flask (if out then .write else .read) false x.pool (64 * len)).map (fun b => (tFlask, b))
    match (if started then none else
        firstTrap [rngRows m 0 1 (64 * len), misAt m (m % 64 ≠ 0), misAt off (off % 64 ≠ 0), own, inside, flk]) with
    | some (c, a) => .trap c a s
    | none =>
      let i1 : QItem := if started then i else { i with sv := i.sv.take 3 ++ [BitVec.ofNat 64 base] }
      if out then s.xferOut n x i1 (x.total + 1) else s.xferIn n x i1 (x.total + 1)

/-- lfq (Table 8.8). -/
def State.effLfq (s : State) (n : Nat) (f : FmtC) (fn : BitVec 4) (i : QItem) : XR :=
  match s.leafOf n (i.opv 0) with
  | none => .trap tFlask 0 s
  | some t =>
    .done (s.cruS n f.d.toNat (BitVec.ofNat 64 (if fn = 0 then t.readLeaf else if fn = 1 then t.writeLeaf else 64 * t.size)))

/-! ## Static checks (R183, R195, R200, R202 to R204) -/

def badC (f : FmtC) : Bool := f.rsv != 0
def badPair (f : FmtC) : Bool := f.rsv != 0 || f.d.getLsbD 0
def badLdres (f : FmtC) : Bool := f.rsv != 0 || f.sh != 0 || f.idx != 0
def badStcond (f : FmtC) : Bool := f.rsv != 0 || f.sh != 0
def badRam (f : FmtC) (fn : BitVec 4) : Bool := f.rsv != 0 || !ramDefined fn.toNat
def badLine (f : FmtC) : Bool := f.rsv != 0 || f.d != 0
def badLeaf (f : FmtC) : Bool := f.rsv != 0 || f.sh != 0 || 0x10000 < bitsOf f.off 0 17 || bitsOf f.off 17 7 != 0
def badLfq (f : FmtC) (fn : BitVec 4) : Bool := f.rsv != 0 || f.sh != 0 || 3 ≤ fn.toNat || f.idx != 0 || f.off != 0
/-- xld and xst: MU, T, TYA, TYB, RM, SAT and Z zero (R166). -/
def badXfer (f : FmtD) : Bool := f.rsv != 0 || f.mu || f.t != 0 || f.tya != 0 || f.tyb != 0 || f.rm != 0 || f.sat || f.z

end Sys2Proof.Machine
end

