-- ==== Sys2Proof/Machine/Queue.lean ====
section
/-! DEFINITION. The issue queues of a crucible (R75, R76, R136): what the head of each queue does, how a queue moves on, and how the
sequencer places an instruction in a queue. -/

namespace Sys2Proof.Machine

open Sys2Proof

/-- The entries of a queue; the sequencer keeps none. -/
def Cru.getQ (c : Cru) : QueueId → List QEntry
  | .seq => [] | .mq0 => c.mq0 | .mq1 => c.mq1 | .vq => c.vq | .xq => c.xq

def Cru.putQ (c : Cru) (q : QueueId) (l : List QEntry) : Cru :=
  match q with
  | .seq => c | .mq0 => { c with mq0 := l } | .mq1 => { c with mq1 := l } | .vq => { c with vq := l } | .xq => { c with xq := l }

/-- MQ0 or MQ1, by MU (R159, R162). -/
def muQ (mu : Bool) : QueueId := if mu then .mq1 else .mq0

/-- The vector integer operations of OP 0x61 (Table 7.8). -/
def vecOp : Instr → Option (FmtA × (Nat → Nat → Nat → Nat))
  | .vadd _ f => some (f, iAdd) | .vsub _ f => some (f, iSub) | .vmul _ f => some (f, iMul) | .vadds _ f => some (f, iAdds)
  | .vsubs _ f => some (f, iSubs) | .vmin _ f => some (f, iMin) | .vmax _ f => some (f, iMax)
  | .vand _ f => some (f, fun _ a b => a &&& b) | .vor _ f => some (f, fun _ a b => a ||| b)
  | .vxor _ f => some (f, fun _ a b => a ^^^ b) | .vshl _ f => some (f, iShl) | .vshr _ f => some (f, iShr)
  | .vsra _ f => some (f, iSra) | _ => none

/-- The special functions (Table 7.11). -/
def sfuOp : Instr → Option (FmtA × Sfu)
  | .vrcpF32 _ f => some (f, .rcp) | .vrsqrtF32 _ f => some (f, .rsqrt) | .vsqrtF32 _ f => some (f, .sqrt)
  | .vexp2F32 _ f => some (f, .exp2) | .vexpF32 _ f => some (f, .exp) | .vlog2F32 _ f => some (f, .log2)
  | .vlnF32 _ f => some (f, .ln) | .vsinF32 _ f => some (f, .sin) | .vcosF32 _ f => some (f, .cos)
  | .vtanhF32 _ f => some (f, .tanh) | .vsigmoidF32 _ f => some (f, .sigmoid) | _ => none

/-- The compares of OP 0x62 (Table 7.8). -/
def cmpOp : Instr → Option (FmtA × Cmp)
  | .vceq _ f => some (f, .eq) | .vcne _ f => some (f, .ne) | .vclt _ f => some (f, .lt) | .vcle _ f => some (f, .le)
  | .vcgt _ f => some (f, .gt) | .vcge _ f => some (f, .ge) | _ => none

/-- A tile instruction at the head of MQ0 or MQ1. -/
def State.runMq (s : State) (n : Nat) (i : QItem) : XR :=
  match i.ins with
  | .mma _ f => s.effMma n f i
  | .tclr _ f => s.effTclr n f i
  | .trow _ f => s.effTrow n f i
  | .ttr _ f => s.effTtr n f i
  | .tsclC _ f => s.effTscl n false f i
  | .tsclR _ f => s.effTscl n true f i
  | .tld _ f => s.effTld n f i
  | .tst _ f => s.effTst n f i
  | _ => .done s

/-- A vector instruction at the head of VQ. -/
def State.runVq (s : State) (n : Nat) (i : QItem) : XR :=
  match vecOp i.ins, sfuOp i.ins, cmpOp i.ins with
  | some (f, op), _, _ => s.effInt n op f i
  | _, some (f, fn), _ => s.effSfu n fn f i
  | _, _, some (f, op) => s.effCmp n op f i
  | none, none, none =>
    match i.ins with
    | .vaddF32 _ f => s.effF2 n (addF32 (rmOf f.rm)) f i
    | .vsubF32 _ f => s.effF2 n (subF32 (rmOf f.rm)) f i
    | .vmulF32 _ f => s.effF2 n (mulF32 (rmOf f.rm)) f i
    | .vfmaF32 _ f => s.effF3 n (fmaF32 (rmOf f.rm)) f i
    | .vfnmaF32 _ f => s.effF3 n (fnmaF32 (rmOf f.rm)) f i
    | .vminF32 _ f => s.effF2 n (fun a b => (minF32 a b, {})) f i
    | .vmaxF32 _ f => s.effF2 n (fun a b => (maxF32 a b, {})) f i
    | .vabsF32 _ f => s.effF1 n (fun x => (absF32 x, {})) f i
    | .vnegF32 _ f => s.effF1 n (fun x => (negF32 x, {})) f i
    | .vsel _ f => s.effSel n f i
    | .vbcast _ f => s.effBcast n f i
    | .vins _ f => s.effIns n f i
    | .vext _ f => s.effExt n f i
    | .vrsumF32 _ f => s.effRed n (addF32 .rne) 0x80000000 f i
    | .vrmaxF32 _ f => s.effRed n (fun a b => (maxF32 a b, {})) nan32 f i
    | .vseed _ f => s.effSeed n f i
    | .vcvt _ f fn => s.effCvt n fn.toNat f i
    | .vqmx _ f => s.effQmx n f i
    | .vdqmx _ f => s.effDqmx n f i
    | .vld _ f => s.effVld n f i
    | .vst _ f => s.effVst n f i
    | .vperm _ f => s.effPerm n f i
    | .vpermB _ f => s.effPermB n f i
    | _ => .done s

/-- An instruction at the head of XQ. -/
def State.runXq (s : State) (n : Nat) (i : QItem) : XR :=
  match i.ins with
  | .xld _ f => s.effXfer n false false f i
  | .xldn _ f => s.effXfer n false true f i
  | .xst _ f => s.effXfer n true false f i
  | .xstn _ f => s.effXfer n true true f i
  | .ldb _ f => s.effLoad n 1 false f i
  | .ldbs _ f => s.effLoad n 1 true f i
  | .ldh _ f => s.effLoad n 2 false f i
  | .ldhs _ f => s.effLoad n 2 true f i
  | .ldw _ f => s.effLoad n 4 false f i
  | .ldws _ f => s.effLoad n 4 true f i
  | .ldd _ f => s.effLoad n 8 false f i
  | .stb _ f => s.effStore n 1 f i
  | .sth _ f => s.effStore n 2 f i
  | .stw _ f => s.effStore n 4 f i
  | .std _ f => s.effStore n 8 f i
  | .ldp _ f => s.effLdp n f i
  | .stp _ f => s.effStp n f i
  | .ldwd (.cru m) f => s.effLdDev m .b4 f i
  | .lddd (.cru m) f => s.effLdDev m .b8 f i
  | .ldres _ f => s.effLdres n f i
  | .stcond _ f => s.effStcond n f i
  | .ram _ f fn => s.effRam n f fn i
  | .cln _ f => s.effLine n false f i
  | .cfl _ f => s.effLine n true f i
  | .lfld _ f => s.effLeaf n false false false f i
  | .lfldn _ f => s.effLeaf n false false true f i
  | .lfst _ f => s.effLeaf n true true false f i
  | .lfstn _ f => s.effLeaf n true true true f i
  | .lfldw _ f => s.effLeaf n false true false f i
  | .lfldwn _ f => s.effLeaf n false true true f i
  | .lfq _ f fn => s.effLfq n f fn i
  | _ => .done s

/-- An instruction at the head of a queue. -/
def State.runItem (s : State) (n : Nat) (q : QueueId) (i : QItem) : XR :=
  match q with
  | .mq0 | .mq1 => s.runMq n i
  | .vq => s.runVq n i
  | .xq => s.runXq n i
  | .seq => .done s

/-- Whether a crucible's queues move: RUNNING, or completing what was issued before a STOP or an ABORT (R92, R151). -/
def Cru.moving (c : Cru) : Bool :=
  c.st == .running || c.st == .stopping || c.st == .resetting || c.st == .retiring

/-- Whether an entry of MQ0, MQ1 or VQ may yet trap: one that reads or writes the mould, and a signal token (R156, R161, R180, R208). -/
def QEntry.mayTrap : QEntry → Bool
  | .op i =>
    (match i.ins with
    | .mma .. | .tsclC .. | .tsclR .. | .tld .. | .tst .. | .vld .. | .vst .. | .vperm .. | .vpermB .. => true
    | _ => false)
  | .sig .. => true
  | .wait .. => false

/-- The place of an entry in program order. -/
def QEntry.place : QEntry → Nat
  | .op i => i.seq
  | .sig _ _ _ q => q
  | .wait .. => 0

/-- Whether an instruction of XQ writes pool memory. -/
def isPoolWrite : Instr → Bool
  | .stb .. | .sth .. | .stw .. | .std .. | .stp .. | .stcond .. | .ram .. | .xst .. | .xstn .. | .lfst .. | .lfstn .. => true
  | _ => false

/-- A store at the head of XQ stays invisible while an earlier instruction of another queue may yet trap (R361). -/
def Cru.storeHeld (c : Cru) (q : QueueId) (i : QItem) : Bool :=
  q == .xq && isPoolWrite i.ins && (c.mq0 ++ c.mq1 ++ c.vq).any (fun e => e.mayTrap && e.place < i.seq)

/-- A queue moves on: its head is performed, and its successors after it, until a token, a wait, or an operation that must wait. -/
def State.pump (s : State) (n : Nat) (q : QueueId) : Nat → State
  | 0 => s
  | fuel + 1 =>
    let c := s.cru n
    if !c.moving then s
    else
      match c.getQ q with
      | .op i :: rest =>
        if c.storeHeld q i then s
        else
        (match s.runItem n q i with
        | .done s1 => (s1.modCru n (fun c => c.putQ q rest)).pump n q fuel
        | .wait s1 i1 => s1.modCru n (fun c => c.putQ q (.op i1 :: rest))
        | .trap code a s1 =>
          let s2 := s1.cruTrap n q code i.pc a
          if c.trap.isSome then (s2.modCru n (fun c => c.putQ q rest)).pump n q fuel else s2)
      | _ => s

/-- A queue moves on as far as it can, and XQ after it: a store may have waited for an instruction of the other queue (R361). -/
def State.pumpQ (s : State) (n : Nat) (q : QueueId) : State :=
  let s1 := s.pump n q (((s.cru n).getQ q).length + 1)
  if q = .xq then s1 else s1.pump n .xq ((s1.cru n).xq.length + 1)

/-- After an event of a crucible's cache its transfer engine goes on, and then its range engine: the accesses that wait on an entry are
served before a range command acts on the line (R344). -/
def State.cruGo (s : State) (n : Nat) : State := ((s.tryFills n).pumpQ n .xq).rangeGo n

/-- The sequencer places an instruction of a crucible in a queue (R75, R136). -/
def State.enqueue (s : State) (n : Nat) (q : QueueId) (i : QItem) : State :=
  (s.modCru n (fun c =>
    { (c.putQ q (c.getQ q ++ [.op { i with seq := c.nseq }])) with mki := c.mki.step, nseq := c.nseq + 1 })).pumpQ n q

/-- An instruction of the crucible profile that runs in a queue (R141, R147, R148): a full queue stalls it. -/
def State.place (s : State) (u : MUnit) (g : Guard) (q : QueueId) (illegal : Bool) (r : Uses) (whole : Bool) (sv : Mki → List Word)
    (ws wp : List Nat) (ins : Instr) : State :=
  match u with
  | .core _ _ => s.front u g illegal true r whole id
  | .cru n =>
    if !illegal && 16 ≤ ((s.cru n.val).getQ q).length then s
    else s.front u g illegal false r whole (fun s =>
      let m := (s.cru n.val).mki
      s.enqueue n.val q { ins := ins, pc := m.pc, sv := sv m, g := m.guard g, ws := ws, wp := wp })

end Sys2Proof.Machine
end

