-- ==== Sys2Proof/Machine/CoreMem.lean ====
section
/-! DEFINITION. Pool accesses of control cores (R135, R142, R362, R370, R372, R483, R484): loads wait for their data, stores are posted,
and the code window goes to the core's own quoin's code store. -/

namespace Sys2Proof.Machine

open Sys2Proof

/-! ## The code store (Table 21.1) -/

/-- A byte of quoin e's code store. -/
def State.codeByte (s : State) (e off : Nat) : Byte :=
  if off < 0x40000 then Config.bootRom off else if off < 0x100000 then 0 else memGet s.code (2 ^ 23 * e + off)

/-- Bytes of the code store as a little-endian number. -/
def State.codeNat (s : State) (e off len : Nat) : Nat := leNat ((List.range len).map (fun k => s.codeByte e (off + k)))

/-- The first poisoned word of a code-store range. -/
def State.codeBad (s : State) (e off len : Nat) : Option Nat :=
  ((s.codePoison.filter (fun w => 2 ^ 20 * e + off / 8 ≤ w && w ≤ 2 ^ 20 * e + (off + len - 1) / 8)).head?).map (fun w => 8 * (w - 2 ^ 20 * e))

/-- A store to the code store: only firmware data is written (Table 21.1). It ends reservations on its line. -/
def State.codeWrite (s : State) (e off : Nat) (bs : List Byte) : State :=
  if off < 0x500000 then s
  else
    let s1 := { s with
      code := memWrite s.code (2 ^ 23 * e + off) bs
      codePoison := s.codePoison.filter (fun w => !(2 ^ 20 * e * 8 + off ≤ 8 * w && 8 * w + 8 ≤ 2 ^ 20 * e * 8 + off + bs.length)) }
    (List.range 4).foldl (fun s c => s.modCore (coreNo e c) (fun k => { k with codeResv := if k.codeResv = some (off / 64) then none else k.codeResv })) s1

/-! ## Registers of a keystone that performs nothing more (R365) -/

/-- The keystone in whose window a register stands, when an access to that keystone has been declared dead and it still counts as in
service: it performs no access any more. -/
def State.devStuck (s : State) (a : Nat) : Option Nat :=
  match winOf a with
  | some (.ks k, _) => if (s.ks k).stopped && s.keyUp k then some k else none
  | _ => none

/-- A register access of control core (e, c) that its target does not perform: the core waits until it is declared dead, and the trap
MEM_ERROR follows (R197, R365, R366). -/
def State.devWait (s : State) (e c : Fin 4) (k a : Nat) (store : Bool) (ins : Instr) : State :=
  let x := coreIx e c
  let (tag, s1) := s.newTag
  let i : QItem := { ins := ins, pc := (s.core x).mki.pc, sv := [BitVec.ofNat 64 a], g := 1 }
  (s1.issue { aid := aidCore x, home := k, line := a / 64, store := store, tag := tag, dev := true }).modCore x
    (fun c => { c with mki := c.mki.step, wait := .dev i tag })

/-! ## Loads -/

/-- The registers of a core written by a load: one, or the two of a pair; `sv` holds address, length and sign. -/
def Mki.landed (m : Mki) (i : QItem) (v : Nat) : Mki :=
  match i.ws with
  | [d] => m.setS d (extendTo (i.opv 1).toNat (i.opv 2 != 0) v)
  | [d, e] => (m.setS d (BitVec.ofNat 64 v)).setS e (BitVec.ofNat 64 (v / 2 ^ 64))
  | _ => m

/-- A core's load ends with a line's data (R196). -/
def State.coreGot (s : State) (x : Nat) (i : QItem) (d : LineData) (p : Bool) : State :=
  let a := (i.opv 0).toNat
  let len := (i.opv 1).toNat
  match firstMark (poisonMarks p) (a % 64) len with
  | some w => s.coreTrap x i.pc tPoolPoison (a / 64 * 64 + 8 * w)
  | none => s.modCore x (fun c => { c with mki := c.mki.landed i (bitsOf d (8 * (a % 64)) (8 * len)) })

/-- A load of control core (e, c) at address `a` (R142, R362, R483): the core waits for the data. `resv` makes it an LDRES. An access
to a line on which an own store is outstanding stalls (R199). -/
def State.coreLoad (s : State) (e c : Fin 4) (a len : Nat) (sgn resv : Bool) (ws : List Nat) (ins : Instr) : State :=
  let x := coreIx e c
  let aid := aidCore x
  let m := (s.core x).mki
  match s.poolCheck (.core e c) a len .read true with
  | some (k, b) => s.coreTrap x m.pc k b
  | none =>
    let i : QItem := { ins := ins, pc := m.pc, sv := [BitVec.ofNat 64 a, BitVec.ofNat 64 len, if sgn then 1 else 0], g := 1, ws := ws }
    let next (s : State) : State := s.modCore x (fun k => { k with mki := k.mki.step })
    if s.inCodeWindow a then
      let off := a - s.codeWindow
      match s.codeBad e.val off len with
      | some w => s.coreTrap x m.pc tPoolPoison (s.codeWindow + w)
      | none =>
        let s1 := next (s.modCore x (fun k => { k with mki := k.mki.landed i (s.codeNat e.val off len) }))
        if resv then (s1.endResvs aid).modCore x (fun k => { k with codeResv := some (off / 64) }) else s1
    else
      match s.homeUp (a / 64) with
      | none => s.coreTrap x m.pc tMemError a
      | some k =>
        if s.posted aid (a / 64) || !s.hasCredit aid k then s
        else
          let (tag, s1) := s.newTag
          let s2 := (s1.issue { aid := aid, home := k, line := a / 64, store := false, tag := tag }).send
            { kind := .rdc, aid := aid, home := k, line := a / 64, tag := tag, resv := resv }
          next (s2.modCore x (fun c => { c with wait := .load i tag, codeResv := if resv then none else c.codeResv }))

/-- A store of control core (e, c): posted (R197). One whose PPA has no home in service traps before it issues (R239, R514; log
entry 93). -/
def State.coreStore (s : State) (e c : Fin 4) (a len v : Nat) : State :=
  let x := coreIx e c
  let m := (s.core x).mki
  match s.poolCheck (.core e c) a len .write true with
  | some (k, b) => s.coreTrap x m.pc k b
  | none =>
    let next (s : State) : State := s.modCore x (fun k => { k with mki := k.mki.step })
    if s.inCodeWindow a then next (s.codeWrite e.val (a - s.codeWindow) (leBytes len v))
    else
      match s.homeUp (a / 64) with
      | none => s.coreTrap x m.pc tMemError a
      | some k =>
        if s.posted (aidCore x) (a / 64) then s
        else
          match s.post (partMsg (aidCore x) k (a / 64) (a % 64) len v false) with
          | some s1 => next (s1.endOwnHome (aidCore x) (a / 64))
          | none => s

/-- A STCOND of control core (e, c) (R200, R372). -/
def State.coreStcond (s : State) (e c : Fin 4) (a idx : Nat) (v : Word) (ins : Instr) : State :=
  let x := coreIx e c
  let aid := aidCore x
  let m := (s.core x).mki
  match s.poolCheck (.core e c) a 8 .write true with
  | some (k, b) => s.coreTrap x m.pc k b
  | none =>
    let ends (s : State) (ok : Bool) : State :=
      (s.endResvs aid).modCore x (fun k => { k with mki := (k.mki.setS idx (if ok then 0 else 1)).step, codeResv := none })
    if s.inCodeWindow a then
      let off := a - s.codeWindow
      if (s.core x).codeResv = some (off / 64) then ends (s.codeWrite e.val off (leBytes 8 v.toNat)) true else ends s false
    else
      match s.homeUp (a / 64) with
      | none => ends s false
      | some k =>
        if s.posted aid (a / 64) then s
        else
          let (b, s0) := s.spurious
          if b then ends s0 false
          else
            match s0.post (partMsg aid k (a / 64) (a % 64) 8 v.toNat true) with
            | some s1 =>
              let i : QItem := { ins := ins, pc := m.pc, sv := [], g := 1, ws := [idx] }
              (s1.endResvsBut aid k).modCore x (fun k => { k with mki := k.mki.step, wait := .cond i (s1.tags - 1), codeResv := none })
            | none => s0

/-! ## Responses -/

/-- Data reaches a control core. Of a fetched line the word at the PC traps where it is poisoned or no instruction (R146, R189). -/
def State.coreData (s : State) (x : Nat) (m : Msg) : State :=
  let s0 := s.complete m.aid m.tag
  match (s.core x).wait with
  | .load i tag =>
    if tag = m.tag then (s0.modCore x (fun c => { c with wait := .none })).coreGot x i m.data m.poison else s0
  | .fetch line tag =>
    if tag = m.tag then
      let s1 := s0.modCore x (fun c => { c with wait := .none })
      let pc := (s1.core x).mki.pc
      if m.poison ∧ line = m.line then s1.coreTrap x pc tFetchPoison pc
      else if pc / 64 = line ∧ mkiDefined (lineInstr m.data pc) = false then s1.coreTrap x pc tIllegal 0
      else s1
    else s0
  | _ => s0

/-- A Cmp reaches a control core: its posted store is complete, or its STCOND has its answer (R372). -/
def State.coreCmp (s : State) (x : Nat) (m : Msg) : State :=
  let s1 := s.complete m.aid m.tag
  match (s.core x).wait with
  | .cond i tag =>
    if tag = m.tag then
      s1.modCore x (fun c => { c with mki := c.mki.setS (i.ws.getD 0 0) (if m.ok then 0 else 1), wait := .none })
    else s1
  | _ => s1

end Sys2Proof.Machine
end

