-- ==== Sys2Proof/Machine/Crucible.lean ====
section
/-! DEFINITION. The states of a crucible (R88 to R100, R151): its commands, how they end, traps and failure, as operations that the
command rows, the pour engine, the fault collector and the boundary steps share. -/

namespace Sys2Proof.Machine

open Sys2Proof

/-- A requester is a control core of the active quoin (R32, R89). -/
def State.isFw (s : State) : Requester → Bool
  | .core e _ => e.val == s.active
  | _ => false

/-- A crucible enters a state: leaving RUNNING ends its reservations (Table 15.4); its summary is compared (R45). -/
def State.cruTo (s : State) (n : Nat) (st : CruSt) : State :=
  let s1 := if (s.cru n).st = .running ∧ st ≠ .running then (s.endResvs n).modCru n (fun c => { c with resv := none, condGot := none }) else s
  let s2 : State := if st = .running then { s1 with ran := setIns s1.ran n } else s1
  (s2.modCru n (fun c => { c with st := st })).note (.cr n)

/-- Everything not yet issued and every result in flight discarded (Table 4.5, ABORT). -/
def Cru.discard (c : Cru) : Cru :=
  { c.dropReads with mq0 := [], mq1 := [], vq := [], xq := [], seqw := .none, trap := none, condGot := none }

/-- The architectural registers as START sets them (R134), and the instruction cache invalid (R73). -/
def Cru.fresh (c : Cru) (entry flask : Nat) (arg : Word) : Cru :=
  { c.dropReads with
    mki := { s := [(1, arg)], pc := entry, flask := flask }, v := [], t := [], sc := [], gens := [], seqw := .none, trap := none,
    mq0 := [], mq1 := [], vq := [], xq := [], nseq := 0, ic := [], resv := none, condGot := none }

/-- CR_ENTRY, CR_ARG and CR_FLASK as START samples them. -/
def State.cruFresh (s : State) (n : Nat) : State :=
  s.modCru n (fun c => c.fresh (s.reg64 (aCr n 0x10) / 64 * 64 % 2 ^ 41) (s.fld (aCr n 0x20) 0 16) (BitVec.ofNat 64 (s.reg64 (aCr n 0x18))))

/-- No pool store of an agent is issued and neither completed nor declared dead (R368). -/
def State.storesDone (s : State) (aid : Nat) : Bool := s.outst.all (fun a => !(a.aid == aid && a.store && !a.wb))

/-- No access of an agent is outstanding. A write-back of its cache is none of its accesses: a store has reached its point with its bytes
in a line held in D (Table 15.1). -/
def State.allDone (s : State) (aid : Nat) : Bool := s.outst.all (fun a => !(a.aid == aid && !a.wb))

/-- A rejected command (R90). -/
def State.cruReject (s : State) (n : Nat) : State := s.bump (aCr n 0x4C) 0 16 1

/-- START (Table 4.5). -/
def State.cruStart (s : State) (n : Nat) : State := (s.cruFresh n).cruTo n .running

/-- ABORT's entry into STOPPING. -/
def State.cruAbort (s : State) (n : Nat) : State :=
  if (s.cru n).st = .stopping ∧ (s.cru n).stopBy = .abort then s
  else (s.modCru n (fun c => { c.discard with stopBy := .abort })).cruTo n .stopping

/-- A flush of a crucible's cache that its state asks for starts when its range engine is free (R95, R99, R228). -/
def State.flushFor (s : State) (n : Nat) (why : RangeFor) : State :=
  if (s.cru n).range.isSome then s else s.rangeStart n 4 why

/-- Step 4 of a block reset begins (R95, R330, R339). -/
def State.cruInvalidate (s : State) (n : Nat) (by_ : StopBy) : State :=
  let s1 := (s.modCru n (fun c => { c with stopBy := by_, cst := .invalidating, cache := [], wb := [], miss := [] })).setReg (aCr n 0x403C) 0xACE1
  if (s1.cru n).snps.isEmpty then s1 else s1.snoopsGo n

/-- A RESETTING or RETIRING moves on: its stores have completed, then its cache is flushed (R95, R99); from FAILED, every sweep that
covers it has ended, and it is live again. -/
def State.cruAdvance (s : State) (n : Nat) : State :=
  let c := s.cru n
  match c.st, c.stopBy with
  | .resetting, .reset =>
    if !s.storesDone n || c.range.isSome || c.miss.any (fun e => e.2.got.isNone) then s
    else if !c.cache.isEmpty then s.flushFor n .reset
    else if c.wb.isEmpty then s.cruInvalidate n .invalidate else s
  | .resetting, .resetFailed =>
    if s.kss.any (fun e => e.2.sweep.contains n || e.2.nextSweep.contains n) then s
    else { s with dead := setDel s.dead n }.cruInvalidate n .invalidateFailed
  | .retiring, .retire => if s.storesDone n && c.range.isNone && c.miss.all (fun e => e.2.got.isSome) && !c.cache.isEmpty then s.flushFor n .retire else s
  | .stopping, .drain => if s.storesDone n && c.range.isNone && c.miss.all (fun e => e.2.got.isSome) && !c.cache.isEmpty then s.flushFor n .chip else s
  | _, _ => s

/-- RESET (R95): from FAILED the crucible is declared dead, and its lines are reclaimed. -/
def State.cruReset (s : State) (n : Nat) : State :=
  if (s.cru n).st = .failed then
    ((s.modCru n (fun c => { c.discard with stopBy := .resetFailed, charge := none })).cruTo n .resetting).declareDead n
  else ((s.modCru n (fun c => { c.discard with stopBy := .reset })).cruTo n .resetting).cruAdvance n

/-- RETIRE (R99). DESIGN CHOICE (log entry 100): a RETIRE that proceeds as ABORT shows RETIRING from its acceptance on, and never STOPPING. -/
def State.cruRetire (s : State) (n : Nat) : State :=
  if (s.cru n).st = .failed ∨ (s.cru n).st = .resetting then
    ((s.modCru n (fun c => { c.discard with stopBy := .none, charge := none, aclkOn := false })).cruTo n .retired).declareDead n
  else ((s.modCru n (fun c => { c.discard with stopBy := .retire })).cruTo n .retiring).cruAdvance n

/-- STANDBY (Table 4.5). -/
def State.cruStandby (s : State) (n : Nat) : State :=
  ((s.modCru n (fun c => { c with standbyBusy := true })).cruTo n .standby).flushFor n .standby

/-- WAKE (R98). -/
def State.cruWake (s : State) (n : Nat) : State := (s.modCru n (fun c => { c with aclkOn := true })).cruTo n .idle

/-- STOP: dispatch ends; what the sequencer waits for has not retired and is the next instruction to dispatch. -/
def State.cruStop (s : State) (n : Nat) : State :=
  (s.modCru n (fun c => { c with stopBy := .stop, seqw := .none, fetchPend := false })).cruTo n .stopping

/-- RESUME: execution goes on at CR_PC. -/
def State.cruResume (s : State) (n : Nat) : State :=
  (s.modCru n (fun c => { c with stopBy := .none, mki := { c.mki with pc := s.reg64 (aCr n 0x28) } })).cruTo n .running

/-- Table 4.5: the states that accept a command. -/
def CruCmd.accepted : CruCmd → CruSt → Bool
  | .start, .idle => true
  | .stop, .running => true
  | .resume, .halted => true
  | .abort, .running | .abort, .stopping | .abort, .halted | .abort, .trapped => true
  | .reset, .idle | .reset, .standby | .reset, .running | .reset, .halted | .reset, .trapped | .reset, .failed => true
  | .standby, .idle => true
  | .wake, .standby => true
  | .retire, .off | .retire, .selftest | .retire, .retiring | .retire, .retired => false
  | .retire, _ => true
  | _, _ => false

/-- The effect of an accepted command. -/
def State.cruEffect (s : State) (n : Nat) : CruCmd → State
  | .start => s.cruStart n
  | .stop => s.cruStop n
  | .resume => s.cruResume n
  | .abort => s.cruAbort n
  | .reset => s.cruReset n
  | .standby => s.cruStandby n
  | .wake => s.cruWake n
  | .retire => s.cruRetire n

/-- A command judged in the state the crucible is in (R90): held while a trap is being recorded (R92), or while the flush of a STANDBY
runs. -/
def State.cruCmd (s : State) (n : Nat) (k : CruCmd) : State :=
  let c := s.cru n
  if c.trap.isSome ∧ (c.st = .running ∨ c.st = .stopping) then s.modCru n (fun c => { c with held := c.held ++ [k] })
  else if !k.accepted c.st then s.cruReject n
  else if c.standbyBusy then s.modCru n (fun c => { c with held := c.held ++ [k] })
  else s.cruEffect n k

/-- BLK reactions of crucibles (Table 22.2): the RESET of Table 4.5, where the state accepts it. -/
def State.blkCruRun (s : State) : State :=
  s.fc.blkCru.foldl (fun s n => if CruCmd.accepted .reset (s.cru n).st then s.cruCmd n .reset else s) (s.modFc (fun f => { f with blkCru := [] }))

/-- The commands held are judged now. -/
def State.cruHeld (s : State) (n : Nat) : State :=
  let h := (s.cru n).held
  h.foldl (fun s k => s.cruCmd n k) (s.modCru n (fun c => { c with held := [] }))

/-- A command written by firmware (R89, R90); the window of a RETIRED crucible takes none (R31, R518). -/
def State.cruWrite (s : State) (r : Requester) (n : Nat) (k : CruCmd) : State :=
  if !s.isFw r || !hasCru s.build n || (s.cru n).st == .retired || s.inReset then s else s.cruCmd n k

/-- Steps 4 and 5 of a trap (R151): CR_TRAP, CR_PC and CR_TRAP_ADDR, then TRAPPED, and the held commands are judged (R92). -/
def State.cruTrapped (s : State) (n : Nat) (t : TrapInfo) : State :=
  let s1 := (s.setReg (aCr n 0x24) (BitVec.ofNat 32 (256 * t.queue + t.code))).setReg64 (aCr n 0x28) (t.pc / 8 * 8 % 2 ^ 41)
  let s2 := (s1.setReg64 (aCr n 0x30) (t.addr % 2 ^ 41)).modCru n (fun c => { c with trap := none, stopBy := .none })
  (s2.cruTo n .trapped).cruHeld n

/-- Whether the started operations and the issued stores of a crucible have completed (R151 step 3). -/
def State.cruQuiet (s : State) (n : Nat) : Bool :=
  let c := s.cru n
  c.mq0.isEmpty && c.mq1.isEmpty && c.vq.isEmpty && c.xq.isEmpty && s.storesDone n

/-- A failure of the crucible (R93): FAILED from any state, and any command in progress ends. A RETIRED crucible stays out of service
until the next chip reset (Table 4.4; log entry 94). -/
def State.cruFail (s : State) (n : Nat) : State :=
  if (s.cru n).st = .retired then s
  else (s.modCru n (fun c => { c.discard with stopBy := .none, held := [], snps := [], standbyBusy := false, range := none })).cruTo n .failed

/-- The end of a range engine's command (R341): BUSY falls. -/
def State.rangeEnd (s : State) (n : Nat) : State := s.modCru n (fun c => { c with range := none })

/-- The end of the invalidation (R339, Table 14.5). -/
def State.cacheInvEnd (s : State) (n : Nat) : State :=
  s.modCru n (fun c => { c with cache := [], wb := [], miss := [], cst := if s.fld (aCr n 0x4000) 0 1 = 1 then .enabled else .bypass })

/-- Steps 4 to 6 of a block reset (R95): the mould is zeros, the registers as for START, CR_PC, CR_TRAP and CR_TRAP_ADDR at reset. -/
def State.cruCleared (s : State) (n : Nat) : State :=
  let s1 := { s with mould := memClear s.mould (2 ^ 23 * n) (2 ^ 23), mouldPoison := s.mouldPoison.filter (fun k => k / 2 ^ 20 ≠ n) }
  ((((s1.cruFresh n).setReg (aCr n 0x24) 0).setReg64 (aCr n 0x28) 0).setReg64 (aCr n 0x30) 0).modCru n
    (fun c => { c with stopBy := .none, tagBad := [], aclkOn := true, charge := none })

end Sys2Proof.Machine
end

