-- ==== Sys2Proof/Machine/Own.lean ====
section
/-! DEFINITION. The set's own accesses to pool memory (R437, R584), who holds a block (R252), notices (R443) and MSI-X messages (R455). -/

namespace Sys2Proof.Machine

open Sys2Proof

/-- The number under which the set's own writes reach a home: no agent of Table 11.1 has it, and it takes no response (log entry 23). -/
def aidSet : Nat := 0x1FE

/-- A write of the set itself of one whole line (R434: a WrF). A home out of service performs none (R514). -/
def State.ownWrite (s : State) (line : Nat) (d : LineData) : State :=
  match s.homeUp line with
  | some k => s.homeReceive { kind := .wrf, aid := aidSet, home := k, line := line, data := d }
  | none => s

/-- Consecutive lines written from their words. -/
def State.ownWords (s : State) : Nat → List Word → Nat → State
  | _, _, 0 => s
  | line, ws, n + 1 => (s.ownWrite line (lineFrom (ws.take 8))).ownWords (line + 1) (ws.drop 8) n

/-- What a read of the set itself has found: nothing yet, poisoned data or an error (R584), or data. -/
inductive OwnRead where
  | busy | bad
  | ok (d : LineData)
  deriving DecidableEq, Repr

/-- How far the read of a line for a queue has come; a line whose home is not in service ends it with an error (R239, R514). -/
def State.ownGot (s : State) (q line : Nat) : OwnRead :=
  match tblFind (s.hq q).reads line with
  | some r => (match r.got with | none => .busy | some none => .bad | some (some d) => .ok d)
  | none => if (s.homeUp line).isNone then .bad else .busy

/-- The RdC of a line for a queue is sent to its home, unless it has been (R428, R403). -/
def State.ownAsk (s : State) (q line : Nat) : State :=
  match tblFind (s.hq q).reads line, s.homeUp line with
  | none, some k =>
    let (tag, s1) := s.newTag
    ((s1.modHq q (fun x => { x with reads := tblSet x.reads line { tag := tag } })).issue
      { aid := aidSet, home := k, line := line, store := false, tag := tag }).send
      { kind := .rdc, aid := aidSet, home := k, line := line, tag := tag }
  | _, _ => s

def State.ownAsks (s : State) (q : Nat) (lines : List Nat) : State := lines.foldl (fun s l => s.ownAsk q l) s

/-- A read of the set ends: with data, or with none where it is poisoned or declared dead. An answer that no queue waits for any more is
discarded. -/
def State.ownData (s : State) (tag : Nat) (d : Option LineData) : State :=
  { s with queues := s.queues.map (fun e => (e.1, { e.2 with reads := e.2.reads.map (fun r =>
    (r.1, if r.2.tag = tag ∧ r.2.got = none then { r.2 with got := some d } else r.2)) })) }

/-- Word i of a line. -/
def lineWord (d : LineData) (i : Nat) : Word := BitVec.ofNat 64 (bitsOf d (64 * i) 64)

/-- Several lines read in one go: busy while one is, bad when one is. -/
def State.ownGots (s : State) (q : Nat) : List Nat → Except Bool (List LineData)
  | [] => .ok []
  | l :: t =>
    match s.ownGot q l, s.ownGots q t with
    | .busy, _ => .error true
    | _, .error true => .error true
    | .bad, _ => .error false
    | _, .error false => .error false
    | .ok d, .ok ds => .ok (d :: ds)

/-! ## Blocks -/

/-- A host domain holds every block of a byte range. -/
def State.holdsRange (s : State) (h a len : Nat) : Bool :=
  len = 0 || (List.range (blockOf (a + len - 1) - blockOf a + 1)).all (fun i => s.holds h (blockOf a + i))

/-- As `holdsRange`, in GRANTED only (R421, R426). -/
def State.grantedRange (s : State) (h a len : Nat) : Bool :=
  s.holdsRange h a len && (len = 0 || (List.range (blockOf (a + len - 1) - blockOf a + 1)).all (fun i =>
    match s.extOf (blockOf a + i) with | some (_, e) => e.st == .granted | none => false))

/-! ## Notices and MSI-X -/

/-- A notice for an LD enters the journal, or is lost when 1024 wait (R443). -/
def State.notice (s : State) (h kind : Nat) (ws : List Word) : State :=
  s.modHd h (fun d => if 1024 ≤ d.notices.length then { d with lost := satAdd 16 d.lost 1 } else { d with notices := d.notices ++ [⟨kind, ws⟩] })

/-- A message for a vector falls due: its PBA bit is set, and MSI_X_SEND sends it once nothing holds it (R455; log entry 24). -/
def State.msix (s : State) (h v : Nat) : State := s.modHd h (fun d => { d with msixHeld := setIns d.msixHeld v })

/-! ## Journal entries -/

/-- A journal entry changed. -/
def State.modJ (s : State) (q seq : Nat) (f : JEntry → JEntry) : State :=
  s.modHq q (fun h => match tblFind h.entries seq with
    | some e => { h with entries := tblSet h.entries seq (f e) }
    | none => h)

/-- A command ends: its record is formed and STATE is DONE (R434, Table 18.6). -/
def State.jDone (s : State) (q seq status : Nat) (result : Word) : State :=
  s.modJ q seq (fun e =>
    if e.st = .done ∨ e.st = .written then e
    else { e with st := .done, status := status, result := result, course := s.course % 2 ^ 48, deferred := (s.hq q).st == .suspended })

end Sys2Proof.Machine
end

