-- ==== Sys2Proof/Machine/Pour.lean ====
section
/-! DEFINITION. Streams, pours and charges (chapter 09): the checks and effects of their commands, release and dealing, how an attempt
ends, reruns and failover, and the outcomes of step 5. -/

namespace Sys2Proof.Machine

open Sys2Proof

/-! ## Records -/

/-- A charge record of pour p (Table 9.5). -/
def Charge.words (c : Charge) (p : Nat) : List Word :=
  [c.arg, packWord [(48, p), (0, c.course)], packWord [(32, c.count), (18, c.stride), (0, c.first)],
   packWord [(16, c.outcome), (8, c.cruc), (2, c.ext), (0, c.attempt)], packWord [(0, c.endCourse)], 0, 0, 0]

def Pour.d (x : Pour) (i : Nat) : Word := x.desc.getD i 0
def Pour.entry (x : Pour) : Nat := bitsOf (x.d 0) 6 35 * 64
def Pour.area (x : Pour) : Nat := bitsOf (x.d 2) 18 23 * 2 ^ 18
def Pour.cadence (x : Pour) : Nat := bitsOf (x.d 3) 48 12 + 1
def Pour.count (x : Pour) : Nat := bitsOf (x.d 3) 18 19
def Pour.first (x : Pour) : Nat := bitsOf (x.d 3) 0 18
def Pour.start (x : Pour) : Nat := bitsOf (x.d 4) 0 48
def Pour.limit (x : Pour) : Nat := bitsOf (x.d 5) 52 4
def Pour.cset (x : Pour) : Nat := bitsOf (x.d 5) 48 4
def Pour.flask (x : Pour) : Nat := bitsOf (x.d 5) 32 16
def Pour.runs (x : Pour) : Nat := bitsOf (x.d 5) 0 32
def Pour.chargeMax (x : Pour) : Nat := bitsOf (x.d 6) 0 16

def State.stream (s : State) (i : Nat) : Stream := tblGet s.streams {} i

/-- A stream entry changed, in the table and in pool memory. -/
def State.modStream (s : State) (i : Nat) (f : Stream → Stream) : State :=
  let t := f (s.stream i)
  { s with streams := tblSet s.streams i t }.ownWrite (s.reg64 0x20008 / 64 + i) (lineFrom t.words)

/-- A pour entry changed, in the table and in pool memory. -/
def State.setPour (s : State) (p : Nat) (x : Pour) : State :=
  { s with pours := tblSet s.pours p x }.ownWords (s.reg64 0x20010 / 64 + 2 * p) x.words 2

def State.modPour (s : State) (p : Nat) (f : Pour → Pour) : State :=
  match tblFind s.pours p with
  | some x => s.setPour p (f x)
  | none => s

/-- A charge record changed, in the ring and in the CHARGE_AREA. -/
def State.setCharge (s : State) (p slot : Nat) (c : Charge) : State :=
  match tblFind s.pours p with
  | some x => { s with pours := tblSet s.pours p { x with ring := tblSet x.ring slot c } }.ownWrite (x.area / 64 + slot) (lineFrom (c.words p))
  | none => s

def State.charge (s : State) (p slot : Nat) : Option Charge := (tblFind s.pours p).bind (fun x => tblFind x.ring slot)

/-- How far an attempt has come, changed; the record in memory does not show it. -/
def State.setRun (s : State) (p slot : Nat) (r : ChargeRun) : State :=
  match tblFind s.pours p with
  | some x =>
    (match tblFind x.ring slot with
    | some c => { s with pours := tblSet s.pours p { x with ring := tblSet x.ring slot { c with run := r } } }
    | none => s)
  | none => s

/-! ## Commands on streams (R215, R583) -/

/-- Bytes of two leaves of a size do not overlap. -/
def disjoint (a b size : Nat) : Bool := a + size ≤ b || b + size ≤ a

/-- Steps 2 to 4 of R583 for a stream that must be the submitter's and not BOUND; a FREE stream is allowed or not. -/
def State.streamCheck (s : State) (h i : Nat) (freeOk busyOk : Bool) : Nat :=
  let t := s.stream i
  if t.st = .free then (if freeOk then 0 else 0x24)
  else if t.owner ≠ h then 0x22
  else if t.st = .bound ∧ !busyOk then 0x23
  else 0

/-- Words that must be zero. -/
def allZero (l : List Word) : Bool := l.all (· == 0)

/-- STREAM_SET. -/
def State.streamSet (s : State) (h : Nat) (c : CmdArgs) : Nat × State :=
  let a := c.payload.getD 0 0
  let b := c.payload.getD 1 0
  let i := c.param0.toNat
  let size := c.param1.toNat
  let la := a.toNat
  let lb := b.toNat
  if !allZero (c.payload.drop 2) || 2 ^ 18 ≤ i || 65536 < size || size = 0 || c.response != 0 || la % 4096 ≠ 0 || lb % 4096 ≠ 0 ||
      2 ^ 41 ≤ la || 2 ^ 41 ≤ lb || !disjoint la lb (64 * size) then (0x21, s)
  else
    let k := s.streamCheck h i true false
    if k ≠ 0 then (k, s)
    else if !(s.holdsRange h la (64 * size) && s.holdsRange h lb (64 * size)) then (0x28, s)
    else (0, s.modStream i (fun t => { leafA := la, leafB := lb, owner := h, pour := t.pour, st := .ready, size := size }))

/-- STREAM_FREE. -/
def State.streamFree (s : State) (h : Nat) (c : CmdArgs) : Nat × State :=
  let i := c.param0.toNat
  if !allZero c.payload || 2 ^ 18 ≤ i || c.param1 != 0 || c.response != 0 then (0x21, s)
  else
    let k := s.streamCheck h i false false
    if k ≠ 0 then (k, s) else (0, s.modStream i (fun t => { t with st := .free }))

/-- A response buffer: PPA bits [40:6] only, wholly in GRANTED blocks of the submitter (R426). -/
def State.respCheck (s : State) (h : Nat) (c : CmdArgs) (len : Nat) : Nat :=
  let a := c.response.toNat
  if 2 ^ 41 ≤ a ∨ a % 64 ≠ 0 then 0x21 else if !s.grantedRange h a len then 0x28 else 0

/-- STREAM_QUERY: the entry written to the response buffer. -/
def State.streamQuery (s : State) (h : Nat) (c : CmdArgs) : Nat × State :=
  let i := c.param0.toNat
  if !allZero c.payload || 2 ^ 18 ≤ i || c.param1 != 0 || s.respCheck h c 64 = 0x21 then (0x21, s)
  else
    let k := s.streamCheck h i false true
    if k ≠ 0 then (k, s)
    else if s.respCheck h c 64 ≠ 0 then (s.respCheck h c 64, s)
    else (0, s.ownWrite (c.response.toNat / 64) (lineFrom (s.stream i).words))

/-! ## Commands on pours (R219, R220, R222) -/

/-- Reserved bits and field ranges of a descriptor (R219, R220 step 1). -/
def descOk (ws : List Word) : Bool :=
  let x : Pour := { desc := ws, owner := 0, opened := 0 }
  let fields : List (Word × Nat) :=
    [(x.d 0, 0x1FFFFFFFFC0), (x.d 2, 0x1FFFFFC0000), (x.d 3, 0x0FFF001FFFFFFFFF), (x.d 4, 0xFFFFFFFFFFFF), (x.d 5, 0x00FFFFFFFFFFFFFF),
     (x.d 6, 0xFFFF), (x.d 7, 0)]
  fields.all (fun e => e.1.toNat &&& e.2 == e.1.toNat) && 1 ≤ x.count && x.count ≤ 262144 && x.first + x.count ≤ 262144 &&
  1 ≤ x.limit && x.limit ≤ 4 && (x.cset < 8 || x.cset == 15) && 1 ≤ x.chargeMax

/-- The streams of a pour. -/
def Pour.streams (x : Pour) : List Nat := (List.range x.count).map (· + x.first)

/-- Every byte of a range lies in segments that pass a test (R220 step 4). -/
def State.segsAll (s : State) (f : Nat) (ok : Seg → Bool) : Nat → Nat → Nat → Bool
  | 0, a, b => b ≤ a
  | fuel + 1, a, b =>
    if b ≤ a then true
    else match s.segAt f a with
    | some g => ok g && s.segsAll f ok fuel g.hi b
    | none => false

def State.rangeIn (s : State) (f : Nat) (ok : Seg → Bool) (a len : Nat) : Bool := s.segsAll f ok 20 a (a + len)

/-- R220 step 4. -/
def State.pourFlaskOk (s : State) (h : Nat) (x : Pour) : Bool :=
  (match tblFind s.flasks x.flask with | some k => k.owner == h && x.flask != 0 | none => false) &&
  s.rangeIn x.flask (fun g => g.x) x.entry 8 && s.rangeIn x.flask (fun g => g.r && !g.w) x.area 262144 &&
  x.streams.all (fun i =>
    let t := s.stream i
    s.rangeIn x.flask (fun g => g.r && g.w && !g.device) t.leafA (64 * t.size) &&
    s.rangeIn x.flask (fun g => g.r && g.w && !g.device) t.leafB (64 * t.size))

/-- R220 step 5. -/
def State.pourHolds (s : State) (h : Nat) (x : Pour) : Bool :=
  s.holdsRange h x.entry 8 && s.holdsRange h x.area 262144 &&
  x.streams.all (fun i => let t := s.stream i; s.holdsRange h t.leafA (64 * t.size) && s.holdsRange h t.leafB (64 * t.size))

/-- Quotient rounded up. -/
def ceilDiv (a b : Nat) : Nat := (a + b - 1) / b

/-- The lowest free pour number. -/
def State.freePour (s : State) : Option Nat := (List.range 4096).find? (fun p => (tblFind s.pours p).isNone)

/-- POUR_OPEN (R220): the status, the pour number, and the state. -/
def State.pourOpen (s : State) (h : Nat) (c : CmdArgs) : Nat × Nat × State :=
  let x : Pour := { desc := c.payload, owner := h, opened := s.course }
  if !descOk c.payload || c.param0 != 0 || c.param1 != 0 || c.response != 0 then (0x21, 0, s)
  else
    match s.freePour with
    | none => (0x27, 0, s)
    | some p =>
      match (x.streams.map (fun i => s.streamCheck h i false false)).find? (· != 0) with
      | some k => (k, 0, s)
      | none =>
        if !s.pourFlaskOk h x then (0x25, 0, s)
        else if !s.pourHolds h x then (0x28, 0, s)
        else if 256 < ceilDiv (ceilDiv x.count x.cadence) x.chargeMax then (0x26, 0, s)
        else (0, p, x.streams.foldl (fun s i => s.modStream i (fun t => { t with st := .bound, pour := p })) (s.setPour p x))

/-- A pour of the submitter (Table 9.2). A pour that is not in use belongs to no host domain (log entry 26). -/
def State.pourOf (s : State) (h p : Nat) : Option Pour :=
  match tblFind s.pours p with
  | some x => if x.owner = h then some x else none
  | none => none

/-- POUR_CLOSE (R222): it completes when the pour ends. -/
def State.pourClose (s : State) (h q seq : Nat) (c : CmdArgs) : Option Nat × State :=
  if !allZero c.payload || 4096 ≤ c.param0.toNat || c.param1 != 0 || c.response != 0 then (some 0x21, s)
  else
    match s.pourOf h c.param0.toNat with
    | none => (some 0x22, s)
    | some _ => (none, s.modPour c.param0.toNat (fun x => { x with closed := true, closers := x.closers ++ [(q, seq)] }))

/-- POUR_QUERY. -/
def State.pourQuery (s : State) (h : Nat) (c : CmdArgs) : Nat × State :=
  if !allZero c.payload || 4096 ≤ c.param0.toNat || c.param1 != 0 || s.respCheck h c 128 = 0x21 then (0x21, s)
  else
    match s.pourOf h c.param0.toNat with
    | none => (0x22, s)
    | some x =>
      if s.respCheck h c 128 ≠ 0 then (s.respCheck h c 128, s)
      else (0, s.ownWords (c.response.toNat / 64) x.words 2)

/-! ## Dealing (R226, R227) -/

/-- Whether a charge is assigned and not yet done. -/
def Charge.undone (c : Charge) : Bool :=
  c.outcome == 0 && (match c.run with | .queued | .started | .flushing .. => true | _ => false)

/-- Charges assigned to a crucible and not done. -/
def State.assigned (s : State) (n : Nat) : List (Nat × Nat × Charge) :=
  s.pours.flatMap (fun e => (e.2.ring.filter (fun r => r.2.undone && r.2.cruc == n)).map (fun r => (e.1, r.1, r.2)))

/-- Streams in the charges assigned to a crucible and not done. -/
def State.loadOf (s : State) (n : Nat) : Nat := (s.assigned n).foldl (fun acc e => acc + e.2.2.count) 0

/-- A crucible holds rerun work. -/
def State.hasRerun (s : State) (n : Nat) : Bool := (s.assigned n).any (fun e => e.2.2.attempt != 0)

/-- Whether crucible m is in QN_CSETi. -/
def State.inCset (s : State) (i m : Nat) : Bool := (s.reg (0x20100 + 16 * i + m / 32 * 4)).getLsbD (m % 32)

/-- The crucibles a pour's charges may go to, before rerun work is looked at (R226). -/
def State.members (s : State) (cset : Nat) : List Nat :=
  let l := if cset = 15 then [] else s.activeCrus.filter (fun n => s.inCset cset n)
  if l.isEmpty then s.activeCrus else l

/-- The eligible crucible with the least load, the lowest number on a tie (R226); when all hold rerun work, of all (R227). -/
def State.pick (s : State) (l : List Nat) : Option Nat :=
  let free := l.filter (fun n => !s.hasRerun n)
  let best (l : List Nat) : Option Nat := l.foldl (fun acc n =>
    match acc with
    | none => some n
    | some m => if s.loadOf n < s.loadOf m then some n else some m) none
  if free.isEmpty then best l else best free

/-! ## Release (R221 to R225) -/

/-- The streams due at a step (R221). -/
def Pour.due (x : Pour) : List Nat :=
  let k := x.step % x.cadence
  if x.count ≤ k then [] else (List.range (ceilDiv (x.count - k) x.cadence)).map (fun j => x.first + k + x.cadence * j)

/-- Runs of consecutive instances cut into charges: (first stream, count). -/
def charges (cad cmax : Nat) : List Nat → List (Nat × Nat)
  | [] => []
  | a :: t =>
    match charges cad cmax t with
    | (b, n) :: r => if b = a + cad ∧ n < cmax then (a, n + 1) :: r else (a, 1) :: (b, n) :: r
    | [] => [(a, 1)]

/-- Runs of consecutive instances (R224). -/
def runsOf (cad : Nat) : List Nat → List (Nat × Nat) := charges cad (2 ^ 32)

/-- One run divided into charges of `cmax`, the last one shorter (R224). -/
def cutRun (cad cmax : Nat) : Nat → Nat × Nat → List (Nat × Nat)
  | 0, _ => []
  | fuel + 1, (a, n) => if n = 0 then [] else if n ≤ cmax then [(a, n)] else (a, cmax) :: cutRun cad cmax fuel (a + cad * cmax, n - cmax)

/-- Instances skipped (R223). -/
def State.skip (s : State) (p : Nat) (streams : List Nat) : State :=
  (streams.foldl (fun s i => s.modStream i (fun t => { t with skipped := satAdd 16 t.skipped 1 })) s).modPour p
    (fun x => { x with skipped := satAdd 32 x.skipped streams.length })

/-- Streams of a charge. -/
def chargeStreams (first count stride : Nat) : List Nat := (List.range count).map (fun i => first + stride * i)

/-- The next slot of a pour's ring holds a PENDING record (R225). -/
def Pour.full (x : Pour) : Bool := match tblFind x.ring x.next with | some c => c.outcome == 0 | none => false

/-- One charge released and dealt (R224, R226), or skipped where the ring is full or no crucible is active (R225, R227). -/
def State.releaseOne (s : State) (p c : Nat) (fc : Nat × Nat) : State :=
  match tblFind s.pours p with
  | none => s
  | some x =>
    let ss := chargeStreams fc.1 fc.2 x.cadence
    match s.pick (s.members x.cset) with
    | none => s.skip p ss
    | some n =>
      if x.full then s.skip p ss
      else
        let slot := x.next
        let r : Charge := { arg := x.d 1, course := c, count := fc.2, stride := x.cadence, first := fc.1, cruc := n,
                            deadline := c + x.limit - 1, dueDeadline := c + x.limit - 1,
                            bound := c + x.limit - 1, excused := s.failoverLeft != 0 }
        let s1 := (s.setPour p { x with next := (slot + 1) % 4096 }).setCharge p slot r
        (ss.foldl (fun s i => s.modStream i (fun t => { t with out := true })) s1).modCru n (fun k => { k with work := k.work ++ [(p, slot)] })

/-- Release of one pour at the boundary that opens course c (R221 to R224). -/
def State.releasePour (s : State) (p c : Nat) : State :=
  match tblFind s.pours p with
  | none => s
  | some x =>
    let (skipped, due) := x.due.partition (fun i => (s.stream i).out)
    let cs := (runsOf x.cadence due).flatMap (fun r => cutRun x.cadence x.chargeMax r.2 r)
    let s1 := s.skip p (skipped ++ (cs.drop 256).flatMap (fun e => chargeStreams e.1 e.2 x.cadence))
    let s2 := (cs.take 256).foldl (fun s e => s.releaseOne p c e) s1
    s2.modPour p (fun x =>
      let last : Bool := x.runs ≠ 0 ∧ x.step + 1 = x.runs * x.cadence
      { x with step := x.step + 1, ran := last, st := if last then .closing else .running })

/-- Step 6 of the boundary that opens course c (R221, R222): closed pours enter CLOSING; a paused boundary releases nothing. -/
def State.releaseAll (s : State) (c : Nat) : State :=
  if s.fld 0x20000 0 1 = 0 then s
  else
    let s1 := s.pours.foldl (fun s e => if e.2.closed && e.2.st != .closing then s.modPour e.1 (fun x => { x with st := .closing }) else s) s
    let pause := s.fld 0x20000 1 1 = 1 || s.fc.chill
    let s2 := if pause then s1
      else s1.pours.foldl (fun s e =>
        if e.2.st = .closing || (e.2.st == .waiting && (c < e.2.start || c < e.2.opened + 2)) || s.isHeld [33, 34] e.1 then s
        else s.releasePour e.1 c) s1
    { s2 with paused := pause }

/-! ## Reruns (R225, R227, R229, R232) -/

/-- A rerun enters a crucible's queue behind earlier reruns and ahead of the rest (R228). -/
def State.queueRerun (s : State) (n p slot : Nat) : State :=
  let isRe (e : Nat × Nat) : Bool := match s.charge e.1 e.2 with | some c => c.attempt != 0 | none => false
  s.modCru n (fun k => { k with work := k.work.takeWhile isRe ++ (p, slot) :: k.work.dropWhile isRe })

/-- A rerun record of an attempt, for crucible n (R229): none where its slot is PENDING (R225); the attempt then ends LOST. -/
def State.rerunOn (s : State) (p slot n : Nat) : Bool × State :=
  match tblFind s.pours p, s.charge p slot with
  | some x, some c =>
    if c.attempt = 2 || x.full then (false, s.setRun p slot .lost)
    else
      let s1 := s.setCharge p slot { c with outcome := 5 }
      let s2 := s1.modPour p (fun x => { x with next := (x.next + 1) % 4096, reruns := satAdd 32 x.reruns 1 })
      let s3 := (s2.setCharge p x.next { c with attempt := c.attempt + 1, cruc := n, run := .queued }).bump64 0x20028 1
      (true, s3.queueRerun n p x.next)
  | _, _ => (false, s)

/-- "Rerun elsewhere" (R229, R227): another eligible crucible; else its own queue, when it is neither FAILED nor RETIRED; else LOST. -/
def State.rerunElsewhere (s : State) (p slot : Nat) : Bool × State :=
  match tblFind s.pours p, s.charge p slot with
  | some x, some c =>
    let l := (s.members x.cset).filter (· ≠ c.cruc)
    let pickFree := l.filter (fun n => !s.hasRerun n)
    (match (if pickFree.isEmpty then none else s.pick pickFree) with
    | some n => s.rerunOn p slot n
    | none =>
      if s.activeCrus.isEmpty then (false, s.setRun p slot .lost)
      else if (s.cru c.cruc).st = .failed ∨ (s.cru c.cruc).st = .retired then
        (match s.pick l with
        | some n => s.rerunOn p slot n
        | none => (false, s.setRun p slot .lost))
      else s.rerunOn p slot c.cruc)
  | _, _ => (false, s)

/-- An attempt ends by a trap (Table 9.6). -/
def State.chargeTrap (s : State) (n code : Nat) : State :=
  match (s.cru n).charge with
  | none => s
  | some (p, slot) =>
    let s0 := s.modCru n (fun c => { c with charge := none })
    if code = tMouldPoison then ((s0.cruCmd n .reset).rerunElsewhere p slot).2
    else (s0.cruCmd n .abort).setRun p slot .lost

/-- The charge of a crucible is done (R228, Table 9.6). -/
def State.chargeDone (s : State) (n : Nat) : State :=
  match (s.cru n).charge with
  | none => s
  | some (p, slot) =>
    let s0 := s.modCru n (fun c => { c with charge := none })
    match s.charge p slot with
    | some c => (match c.run with
      | .flushing exit inc _ => if inc then (s0.rerunElsewhere p slot).2 else s0.setRun p slot (.done exit false)
      | _ => s0)
    | none => s0

/-- Start the next charge of a crucible (R228). -/
def State.chargeStart (s : State) (n : Nat) : State :=
  let c := s.cru n
  match c.work with
  | (p, slot) :: rest =>
    (match tblFind s.pours p with
    | some x =>
      let s1 := (s.setReg64 (aCr n 0x10) x.entry).setReg64 (aCr n 0x18) (x.area + 64 * slot)
      let s2 := (s1.setReg (aCr n 0x20) (BitVec.ofNat 32 x.flask)).modCru n (fun c => { c with work := rest, charge := some (p, slot) })
      (s2.setRun p slot .started).cruCmd n .start
    | none => s.modCru n (fun c => { c with work := rest }))
  | [] => s

/-! ## Failover (R232, R235) -/

/-- Crucible n replaced by m in every QN_CSET, or taken out where there is no m. -/
def State.csetSwap (s : State) (n : Nat) (m : Option Nat) : State :=
  (List.range 8).foldl (fun s i =>
    if s.inCset i n then
      let a := 0x20100 + 16 * i
      let s1 := s.setFld (a + n / 32 * 4) (n % 32) 1 0
      match m with | some m => s1.setFld (a + m / 32 * 4) (m % 32) 1 1 | none => s1
    else s) s

/-- The host domains of the build. -/
def State.hostDomains (s : State) : List Nat := (List.range 128).filter (fun h => hasGt s.build (h / 16))

/-- The charges assigned to crucible n and not done: the one that runs, then its queue in order (R232). -/
def State.unfinished (s : State) (n : Nat) : List (Nat × Nat) :=
  ((s.assigned n).filter (fun e => e.2.2.run != .queued)).map (fun e => (e.1, e.2.1)) ++
  (s.cru n).work.filter (fun e => match s.charge e.1 e.2 with | some c => c.undone | none => false)

/-- The engine acts on a reported failure (R232, R235). -/
def State.failover (s : State) (n : Nat) : State :=
  let s0 := s.modFc (fun f => { f with failReports := setDel f.failReports n })
  if s.role n ≠ 1 then s0
  else
    let todo := s.unfinished n
    let s1 := ((s0.modCru n (fun c => { c with work := [], charge := none })).cruCmd n .retire).setFld (aCr n 8) 8 2 0
    let riser := s1.risersLeft.head?
    let s2 := match riser with
      | some m => ((s1.cruCmd m .wake).setFld (aCr m 8) 8 2 1).csetSwap n (some m)
      | none => (s1.csetSwap n none).raiseAt 35 unitSet
    let (cnt, s3) := todo.foldl (fun (acc : Nat × State) e =>
      let (ok, s') := match riser with | some m => acc.2.rerunOn e.1 e.2 m | none => acc.2.rerunElsewhere e.1 e.2
      (acc.1 + b2n ok, s')) (0, s2)
    let left := s3.risersLeft.length
    let s4 := s3.mark 0x0030 n (riser.getD 0xFF) 0 cnt left
    let w := packWord [(0, s4.activeCrus.length), (8, left), (16, n)]
    { s4.hostDomains.foldl (fun s h => s.notice h 1 [w]) s4 with failoverLeft := 2 }

/-! ## Step 5 (R230, R231, R222) -/

/-- The final outcome of a record that step 5 of the boundary ending course `ended` gives, if any: 1 COMMITTED, 2 DECLINED, 3 MISSED,
4 LOST; and the record extended, where it is. No extension reaches past the second boundary after the deadline boundary (R234). -/
def State.judge (s : State) (ended : Nat) (c : Charge) : Option Nat × Charge :=
  match c.run with
  | .done exit _ => (some (if exit = 0 then 1 else if exit = 1 then 2 else 4), c)
  | .lost => (some 4, c)
  | .missed => (some 3, c)
  | r =>
    if s.activeCrus.isEmpty ∧ r = .queued then (some 4, c)
    else if ended < c.deadline then (none, c)
    else if (c.attempt ≠ 0 ∨ c.excused) ∧ c.ext < 2 ∧ ended < c.bound + 2 then (none, { c with ext := c.ext + 1, deadline := ended + 1 })
    else if (s.cru c.cruc).st = .failed then (none, c)
    else (some 3, c)

/-- A final outcome takes effect on its streams and counts (R231). -/
def State.outcome (s : State) (p slot ended k : Nat) (c : Charge) : State :=
  let ss := chargeStreams c.first c.count c.stride
  let s1 := s.setCharge p slot { c with outcome := k, endCourse := ended % 2 ^ 48 }
  let slip := k = 1 ∧ c.dueDeadline < ended
  let s2 := s1.modPour p (fun x =>
    { x with commitCourse := ended % 2 ^ 48,
             committed := if k = 1 then satAdd 32 x.committed c.count else x.committed,
             missed := if k = 3 then satAdd 32 x.missed c.count else x.missed,
             lost := if k = 4 then satAdd 32 x.lost c.count else x.lost,
             slipped := if slip then satAdd 32 x.slipped 1 else x.slipped })
  let s3 := ss.foldl (fun s i => s.modStream i (fun t =>
    if k = 1 then { t with cur := !t.cur, gen := (t.gen + 1) % 2 ^ 32, lastCommit := c.course % 2 ^ 48, out := false }
    else { t with out := false, lost := if k = 3 ∨ k = 4 then satAdd 16 t.lost 1 else t.lost })) s2
  let s4 := if k = 1 then s3.bump64 0x20018 1 else if k = 3 then s3.bump64 0x20020 1 else if k = 4 then s3.bump64 0x20038 1 else s3
  let s5 := if slip then s4.bump64 0x20030 1 else s4
  if k = 3 then s5.raise { src := 33, unit := unitCru c.cruc } p
  else if k = 4 then s5.raise { src := 34, unit := unitCru c.cruc } p
  else s5

/-- A crucible's attempt is ended by the engine: aborted when it runs, taken out of the queue otherwise. A FLUSH_ALL of it goes on as a
command of its own, and the next charge has its own (R228). -/
def State.dropCharge (s : State) (p slot : Nat) (c : Charge) : State :=
  let n := c.cruc
  if (s.cru n).charge = some (p, slot) then
    let s1 := s.modCru n (fun c =>
      { c with charge := none, range := c.range.map (fun r => if r.why = .charge then { r with why := .command } else r) })
    if (CruCmd.abort).accepted (s1.cru n).st then s1.cruCmd n .abort else s1
  else s.modCru n (fun k => { k with work := k.work.filter (· ≠ (p, slot)) })

/-- A pour ends (R222): its streams, its notice, its POUR_CLOSE commands and its entry. A stream with a leaf in a quiescing extent
becomes FREE (R258). -/
def State.pourEnd (s : State) (p : Nat) (x : Pour) : State :=
  let quiet (a size : Nat) : Bool := match s.extOf (blockOf a), s.extOf (blockOf (a + size - 1)) with
    | some (_, e), some (_, e') => e.st == .quiescing || e'.st == .quiescing
    | _, _ => false
  let s1 := x.streams.foldl (fun s i => s.modStream i (fun t =>
    { t with st := if quiet t.leafA (64 * t.size) || quiet t.leafB (64 * t.size) then .free else .ready })) s
  let s2 := s1.notice x.owner 2 ([packWord [(0, p), (16, if x.ran then 1 else 2)]] ++ (x.words.drop 11).take 3)
  let s3 := x.closers.foldl (fun s e => s.jDone e.1 e.2 0 0) s2
  { s3 with pours := tblDel s3.pours p }.ownWords (s.reg64 0x20010 / 64 + 2 * p) (List.replicate 16 0) 2

/-- Judge one record at the boundary that ends course `ended`. -/
def State.judgeOne (s : State) (ended p slot : Nat) : State :=
  match s.charge p slot with
  | none => s
  | some c =>
    if c.outcome ≠ 0 then s
    else match s.judge ended c with
    | (some k, _) =>
      let s1 := match c.run with | .done .. | .missed => s | _ => s.dropCharge p slot c
      s1.outcome p slot ended k c
    | (none, c') => if c' = c then s else s.setCharge p slot c'

/-- The engine ends or extends an undone charge at its deadline boundary (R230): the ABORT goes out, and MISSED takes effect with the
other outcomes of that step 5 (R231). -/
def State.deadline (s : State) (ended p slot : Nat) (c : Charge) : State :=
  match s.judge ended c with
  | (some 3, _) => (s.dropCharge p slot c).setRun p slot .missed
  | (none, c') => if c' = c then s else s.setCharge p slot c'
  | _ => s

/-- Step 5: every PENDING record is judged, pours in increasing number and records in ring order, then closing pours with none left end. -/
def State.judgeAll (s : State) (ended : Nat) : State :=
  let s1 := s.pours.foldl (fun s e =>
    let order := (e.2.ring.filter (fun r => e.2.next ≤ r.1)) ++ (e.2.ring.filter (fun r => r.1 < e.2.next))
    order.foldl (fun s r => s.judgeOne ended e.1 r.1) s) s
  s1.pours.foldl (fun s e => if e.2.st = .closing && e.2.ring.all (fun r => r.2.outcome != 0) then s.pourEnd e.1 e.2 else s) s1

/-- Chill was in effect since the release of every pending charge (R230). -/
def State.excuseAll (s : State) : State :=
  { s with pours := s.pours.map (fun e => (e.1, { e.2 with ring := e.2.ring.map (fun r => (r.1, { r.2 with excused := true })) })) }

end Sys2Proof.Machine
end

