-- ==== Sys2Proof/Machine/MkiSync.lean ====
section
/-! DEFINITION. Sync counters and barriers (R207 to R212, R193, R367): the instructions, the firing of a signal token, the release of a
wait, and the retirement of MORTAR and END. -/

namespace Sys2Proof.Machine

open Sys2Proof

/-- The queue that an FN of 0 to 4 names (R207). -/
def queueOf (fn : Nat) : QueueId := match fn with | 1 => .mq0 | 2 => .mq1 | 3 => .vq | 4 => .xq | _ => .seq

/-- n of R207. -/
def Mki.syncN (m : Mki) (f : FmtE) : Nat := ((m.sreg f.a.toNat).toNat % 2 ^ 32 + f.imm.toNat) % 2 ^ 32

/-- sc[k] of a crucible. -/
def Cru.scOf (c : Cru) (k : Nat) : Nat := tblGet c.sc 0 k

/-- A signal fires: the counter rises, or the token traps with SYNC_OVERFLOW (R208). -/
def State.fire (s : State) (n : Nat) (q : QueueId) (k d pc : Nat) (next : Cru → Cru) : State :=
  let c := s.cru n
  if 2 ^ 32 ≤ c.scOf k + d then s.cruTrap n q tSyncOverflow pc k
  else s.modCru n (fun c => next { c with sc := tblSet c.sc k (c.scOf k + d) })

/-- The PC of a crucible moved to the next instruction. -/
def Cru.stepPc (c : Cru) : Cru := { c with mki := c.mki.step }

/-- An entry that is not an operation placed at the tail of a queue; a full queue stalls it (R75). -/
def State.putEntry (s : State) (n : Nat) (q : QueueId) (e : QEntry) : State :=
  if 16 ≤ ((s.cru n).getQ q).length then s else s.modCru n (fun c => { (c.putQ q (c.getQ q ++ [e])).stepPc with nseq := c.nseq + 1 })

/-- A sync instruction: the crucible profile only, FN at most `maxQ` (R207). -/
def State.syncIns (s : State) (u : MUnit) (f : FmtE) (fn : BitVec 6) (maxQ : Nat) (bad : Bool) (uses : Uses) (eff : Nat → State → State) : State :=
  s.front u f.g (maxQ < fn.toNat || f.rsv || bad) (!isCru u) uses true (fun s => match u with
    | .cru n => eff n.val s
    | .core _ _ => s)

/-- scsig (R208). -/
def execScsig (u : MUnit) (f : FmtE) (fn : BitVec 6) (s : State) : Host.Outcome State Fault Refusal :=
  .next (s.syncIns u f fn 4 false ⟨[f.a], []⟩ (fun n s =>
    let m := (s.cru n).mki
    if fn = 0 then s.fire n .seq f.sc.toNat (m.syncN f) m.pc Cru.stepPc
    else s.putEntry n (queueOf fn.toNat) (.sig f.sc.toNat (m.syncN f) m.pc (s.cru n).nseq)))

/-- Whether every pool access that XQ issued has been accepted (R171, R208): a Ram once it has left for good, any other write with its
Cmp. -/
def State.xqAccepted (s : State) (n : Nat) : Bool :=
  s.outst.all (fun a => a.aid != n || a.wb || (match tblFind (s.cru n).miss a.line with | some e => e.tag == a.tag | none => false) ||
    (a.ram && !s.net.any (fun m => m.aid == n && m.tag == a.tag && m.kind == .ram) &&
      !s.kss.any (fun k => (k.2.queue ++ k.2.retry).any (fun m => m.aid == n && m.tag == a.tag))))

/-- SIGNAL_TOKEN_FIRE (R208): the token at the head of the queue. -/
def execSignalTokenFire (n : Fin 72) (q : QueueId) (s : State) : Host.Outcome State Fault Refusal :=
  .next (
    let c := s.cru n.val
    match c.getQ q with
    | .sig k d pc _ :: rest =>
      if !c.moving || (q == .xq && !s.xqAccepted n.val) then s
      else (s.fire n.val q k d pc (fun c => c.putQ q rest)).pumpQ n.val q
    | _ => s)

/-- scwait (R209): on queue 0 dispatch stalls until the counter is there. -/
def execScwait (u : MUnit) (f : FmtE) (fn : BitVec 6) (s : State) : Host.Outcome State Fault Refusal :=
  .next (s.syncIns u f fn 4 false ⟨[f.a], []⟩ (fun n s =>
    let c := s.cru n
    let v := c.mki.syncN f
    if fn = 0 then
      (if v ≤ c.scOf f.sc.toNat then s.modCru n Cru.stepPc else s.modCru n (fun c => { c with seqw := .scwait f.sc.toNat v }))
    else s.putEntry n (queueOf fn.toNat) (.wait f.sc.toNat v)))

/-- SCWAIT_RELEASE (R209): the wait at the head of a queue, or of dispatch, whose counter is there. -/
def execScwaitRelease (n : Fin 72) (q : QueueId) (s : State) : Host.Outcome State Fault Refusal :=
  .next (
    let c := s.cru n.val
    if !c.moving then s
    else if q = .seq then
      (match c.seqw with
      | .scwait k v => if v ≤ c.scOf k then s.modCru n.val (fun c => { c.stepPc with seqw := .none }) else s
      | _ => s)
    else
      match c.getQ q with
      | .wait k v :: rest => if v ≤ c.scOf k then (s.modCru n.val (fun c => c.putQ q rest)).pumpQ n.val q else s
      | _ => s)

/-- A signal token on a counter stands in a queue. -/
def Cru.signals (c : Cru) (k : Nat) : Bool :=
  (c.mq0 ++ c.mq1 ++ c.vq ++ c.xq).any (fun e => match e with | .sig j _ _ _ => j == k | _ => false)

/-- scset (R210): it waits at dispatch until earlier tokens on its counter have fired. -/
def execScset (u : MUnit) (f : FmtE) (fn : BitVec 6) (s : State) : Host.Outcome State Fault Refusal :=
  .next (s.syncIns u f fn 0 false ⟨[f.a], []⟩ (fun n s =>
    let c := s.cru n
    if c.signals f.sc.toNat then s
    else s.modCru n (fun c => { c.stepPc with sc := tblSet c.sc f.sc.toNat (c.mki.syncN f) })))

/-- scread (Table 8.9). -/
def execScread (u : MUnit) (f : FmtE) (fn : BitVec 6) (s : State) : Host.Outcome State Fault Refusal :=
  .next (s.syncIns u f fn 0 (f.imm != 0) ⟨[f.a], []⟩ (fun n s =>
    s.modCru n (fun c => { c with mki := (c.mki.setS f.a.toNat (BitVec.ofNat 64 (c.scOf f.sc.toNat))).step })))

/-- MORTAR (R212): dispatch stops; MORTAR_RETIRE ends it. -/
def execMortar (u : MUnit) (f : FmtE) (s : State) : Host.Outcome State Fault Refusal :=
  .next (s.front u f.g (f.sc != 0 || f.rsv || f.a != 0 || f.imm != 0) false {} true (fun s => match u with
    | .cru n => s.modCru n.val (fun c => { c with seqw := .mortar })
    | .core e c => s.modCore (coreIx e c) (fun k => { k with wait := .mortar })))

/-- No command of a range engine that an agent gave, or that runs in a crucible itself, is in progress (R364). -/
def Cru.commanded (c : Cru) (own : Bool) (aid : Nat) : Bool :=
  match c.range with
  | some r => r.why == .command && (own || r.by_ == some aid)
  | none => false

/-- Whether the conditions of a barrier of a crucible hold (R212, R364). -/
def State.barrierDone (s : State) (n : Nat) : Bool :=
  let c := s.cru n
  c.st == .running && c.mq0.isEmpty && c.mq1.isEmpty && c.vq.isEmpty && c.xq.isEmpty && s.allDone n && !c.commanded true n

/-- Whether the conditions of a barrier of a control core hold (R212, R364): the range commands it gave have ended too. -/
def State.coreBarrier (s : State) (x : Nat) : Bool :=
  s.allDone (aidCore x) && s.crus.all (fun e => !e.2.commanded false (aidCore x))

/-- A barrier retires: INCOMPLETE says whether a store before it was declared dead (R367). -/
def Mki.retireBarrier (m : Mki) : Mki := { m.step with incomplete := m.deadStore, deadStore := false }

/-- MORTAR_RETIRE (R212, R367). -/
def execMortarRetire (u : MUnit) (s : State) : Host.Outcome State Fault Refusal :=
  .next (match u with
    | .cru n =>
      if (s.cru n.val).seqw = .mortar ∧ s.barrierDone n.val = true then
        s.modCru n.val (fun c => { c with seqw := .none, mki := c.mki.retireBarrier })
      else s
    | .core e c =>
      let x := coreIx e c
      if (s.core x).wait = .mortar ∧ s.coreBarrier x = true then
        s.modCore x (fun k => { k with wait := .none, mki := k.mki.retireBarrier })
      else s)

/-- END_RETIRE (R193, R228): the crucible enters IDLE; for a charge, the report's exit code and INCOMPLETE are kept, and the engine
flushes the cache. -/
def execEndRetire (n : Fin 72) (s : State) : Host.Outcome State Fault Refusal :=
  .next (
    let c := s.cru n.val
    match c.seqw with
    | .ending code =>
      if !s.barrierDone n.val then s
      else
        let s1 := (s.modCru n.val (fun c => { c with seqw := .none, mki := c.mki.retireBarrier })).cruTo n.val .idle
        (match c.charge with
        | some (p, slot) => (s1.setRun p slot (.flushing code c.mki.deadStore)).flushFor n.val .charge
        | none => s1)
    | _ => s)

end Sys2Proof.Machine
end

