-- ==== Sys2Proof/Machine/CruRows.lean ====
section
/-! DEFINITION. The crucible rows (R88 to R100, R151, R228, R232): the commands of Table 4.5, how they end, failure, traps, charges. -/

namespace Sys2Proof.Machine

open Sys2Proof

/-- START (Table 4.5). -/
def execStart (r : Requester) (n : Fin 72) (s : State) : Host.Outcome State Fault Refusal := .next (s.cruWrite r n.val .start)

/-- STOP (Table 4.5). -/
def execStop (r : Requester) (n : Fin 72) (s : State) : Host.Outcome State Fault Refusal := .next (s.cruWrite r n.val .stop)

/-- STOP_COMPLETE (Table 4.5, R92): HALTED with CR_PC, or TRAPPED. -/
def execStopComplete (n : Fin 72) (s : State) : Host.Outcome State Fault Refusal :=
  .next (
    let c := s.cru n.val
    if c.st = .stopping ∧ c.stopBy = .stop ∧ s.cruQuiet n.val = true then
      match c.trap with
      | some t => (s.cruTrapped n.val t).chargeTrap n.val t.code
      | none => ((s.setReg64 (aCr n.val 0x28) (c.mki.pc / 8 * 8 % 2 ^ 41)).modCru n.val (fun c => { c with stopBy := .none })).cruTo n.val .halted
    else s)

/-- RESUME (Table 4.5). -/
def execResume (r : Requester) (n : Fin 72) (s : State) : Host.Outcome State Fault Refusal := .next (s.cruWrite r n.val .resume)

/-- ABORT (Table 4.5). -/
def execAbort (r : Requester) (n : Fin 72) (s : State) : Host.Outcome State Fault Refusal := .next (s.cruWrite r n.val .abort)

/-- ABORT_COMPLETE (R368): IDLE; the registers hold what they held. -/
def execAbortComplete (n : Fin 72) (s : State) : Host.Outcome State Fault Refusal :=
  .next (
    let c := s.cru n.val
    if c.st = .stopping ∧ c.stopBy = .abort ∧ s.storesDone n.val = true then
      (s.modCru n.val (fun c => { c with stopBy := .none, charge := none })).cruTo n.val .idle
    else s)

/-- RESET (R95). -/
def execReset (r : Requester) (n : Fin 72) (s : State) : Host.Outcome State Fault Refusal := .next (s.cruWrite r n.val .reset)

/-- RESET_COMPLETE (R95 steps 4 to 7). DESIGN CHOICE (log entry 100): during step 7 of a RESET from FAILED, CR_STATE.STATE reads SELFTEST,
so that a RETIRE is rejected there, and CR_SELFTEST reads 0 from the start of that self-test. -/
def execResetComplete (n : Fin 72) (s : State) : Host.Outcome State Fault Refusal :=
  .next (
    let s0 := s.cruAdvance n.val
    let c := s0.cru n.val
    if c.st = .resetting ∧ c.cst ≠ .invalidating ∧ c.cst ≠ .draining then
      match c.stopBy with
      | .invalidate => (s0.cruCleared n.val).cruTo n.val .idle
      | .invalidateFailed => ((s0.cruCleared n.val).setReg (aCr n.val 0x50) 0).cruTo n.val .selftest
      | _ => s0
    else s0)

/-- STANDBY (Table 4.5). -/
def execStandby (r : Requester) (n : Fin 72) (s : State) : Host.Outcome State Fault Refusal := .next (s.cruWrite r n.val .standby)

/-- STANDBY_COMPLETE (Table 4.5): the write-back and invalidation end, ACLK stops, and a held command takes effect. -/
def execStandbyComplete (n : Fin 72) (s : State) : Host.Outcome State Fault Refusal :=
  .next (
    let c := s.cru n.val
    if c.st = .standby ∧ c.standbyBusy = true then
      if c.cache.isEmpty ∧ c.wb.isEmpty ∧ (c.range.isNone ∨ (c.rangeDone = true ∧ (c.range.map (·.why)) = some .standby)) then
        ((if c.range.isSome then s.rangeEnd n.val else s).modCru n.val (fun c => { c with standbyBusy := false, aclkOn := false })).cruHeld n.val
      else s.flushFor n.val .standby
    else s)

/-- WAKE (R98). -/
def execWake (r : Requester) (n : Fin 72) (s : State) : Host.Outcome State Fault Refusal := .next (s.cruWrite r n.val .wake)

/-- RETIRE (R99). -/
def execRetire (r : Requester) (n : Fin 72) (s : State) : Host.Outcome State Fault Refusal := .next (s.cruWrite r n.val .retire)

/-- RETIRE_COMPLETE (R99). -/
def execRetireComplete (n : Fin 72) (s : State) : Host.Outcome State Fault Refusal :=
  .next (
    let c := s.cru n.val
    if c.st = .retiring ∧ c.stopBy = .retire ∧ s.storesDone n.val = true then
      if c.cache.isEmpty ∧ c.wb.isEmpty ∧ c.miss.all (fun e => e.2.got.isSome) = true ∧ (c.range.isNone ∨ (c.rangeDone = true ∧ (c.range.map (·.why)) = some .retire)) then
        ((if c.range.isSome then s.rangeEnd n.val else s).modCru n.val
          (fun c => { c with stopBy := .none, aclkOn := false, charge := none })).cruTo n.val .retired
      else s.cruAdvance n.val
    else s)

/-- SELFTEST_END (R96). -/
def execSelftestEnd (n : Fin 72) (failPart : BitVec 8) (s : State) : Host.Outcome State Fault Refusal :=
  .next (
    if (s.cru n.val).st = .selftest then
      if failPart = 0 then
        ((s.setReg (aCr n.val 0x50) 0xC0000000).modCru n.val (fun c => { c with aclkOn := true })).cruTo n.val .idle
      else (((s.setReg (aCr n.val 0x50) (0x80000000 ||| failPart.setWidth 32)).cruFail n.val).raiseAt 6 (unitCru n.val)).blkCruRun
    else s)

/-- The fault source of a failure (Table 22.3). -/
def failSrc : CruFailure → Fin 64
  | .tagParity _ => 3 | .internal => 4 | .portLost => 5 | .selftest => 6 | .snoopTimeout => 7

/-- A failure of crucible n with its fault (R93). After a tag parity error the tags of that set cannot be read (R338). -/
def State.cruFailed (s : State) (n : Nat) (src : CruFailure) : State :=
  if !hasCru s.build n || (s.cru n).st == .retired || (s.cru n).st == .failed then s
  else (((s.modCru n (fun c => { c with tagBad := match src with | .tagParity i => setIns c.tagBad i.val | _ => c.tagBad })).cruFail n).raiseAt (failSrc src) (unitCru n)).blkCruRun

/-- CRUCIBLE_FAIL (R93). -/
def execCrucibleFail (n : Fin 72) (src : CruFailure) (s : State) : Host.Outcome State Fault Refusal := .next (s.cruFailed n.val src)

/-- CRUCIBLE_TRAP (R151, R229): once the started operations and issued stores have completed, the trap is recorded. -/
def execCrucibleTrap (n : Fin 72) (s : State) : Host.Outcome State Fault Refusal :=
  .next (
    let c := s.cru n.val
    match c.trap with
    | some t =>
      if (c.st = .running ∨ (c.st = .stopping ∧ c.stopBy = .stop)) ∧ s.cruQuiet n.val = true then
        (s.cruTrapped n.val t).chargeTrap n.val t.code
      else s
    | none => s)

/-- CHARGE_START (R228). -/
def execChargeStart (n : Fin 72) (s : State) : Host.Outcome State Fault Refusal :=
  .next (
    let c := s.cru n.val
    if c.st = .idle ∧ c.charge = none then s.chargeStart n.val else s)

/-- CHARGE_DONE (R228): the FLUSH_ALL after this charge's END has ended. -/
def execChargeDone (n : Fin 72) (s : State) : Host.Outcome State Fault Refusal :=
  .next (
    let c := s.cru n.val
    match c.charge with
    | none => s
    | some (p, slot) =>
      match (s.charge p slot).map (fun (x : Charge) => x.run) with
      | some (.flushing _ _ flushed) =>
        let mine (s : State) : Bool := (s.cru n.val).rangeDone && ((s.cru n.val).range.map (·.why)) == some .charge
        if flushed then s.chargeDone n.val
        else if mine s then (s.rangeEnd n.val).chargeDone n.val
        else
          let s1 := s.flushFor n.val .charge
          if mine s1 then (s1.rangeEnd n.val).chargeDone n.val else s1
      | _ => s)

/-- FAILOVER (R232, R235). -/
def execFailover (n : Fin 72) (s : State) : Host.Outcome State Fault Refusal :=
  .next (if s.fc.failReports.contains n.val then s.failover n.val else s)

end Sys2Proof.Machine
end

