-- ==== Sys2Proof/Machine/Ladle.lean ====
section
/-! DEFINITION. Ladles (R407 to R418): the checks of a descriptor, the issue of its requests, its fragments, its end, and what a head or
function event does to it (R462). -/

namespace Sys2Proof.Machine

open Sys2Proof

/-! ## Descriptor fields (Table 17.3) -/

def dFlask (w : List Word) : Nat := bitsOf (w.getD 0 0) 32 16
def dRamop (w : List Word) : Nat := bitsOf (w.getD 0 0) 16 4
def dPeer (w : List Word) : Bool := bitAt (w.getD 0 0) 12
def dFence (w : List Word) : Bool := bitAt (w.getD 0 0) 9
def dOrdered (w : List Word) : Bool := bitAt (w.getD 0 0) 8
def dLen (w : List Word) : Nat := bitsOf (w.getD 3 0) 0 32 + 1
def dStart (w : List Word) : Nat := bitsOf (w.getD 4 0) 0 48

def LDesc.ppa (d : LDesc) : Nat := (d.w.getD 6 0).toNat
def LDesc.src (d : LDesc) : Nat := (d.w.getD 7 0).toNat
def LDesc.len (d : LDesc) : Nat := dLen d.w

/-- The host address of byte `off` of a line of the range. -/
def LDesc.hostAddr (d : LDesc) (line off : Nat) : Nat := (d.w.getD 1 0).toNat + (64 * line + off - d.ppa)
def LDesc.hd (d : LDesc) : Nat := d.q / 16
def LDesc.firstLine (d : LDesc) : Nat := d.ppa / 64
def LDesc.lastLine (d : LDesc) : Nat := (d.ppa + d.len - 1) / 64

/-- The fragment size S (R414). -/
def LDesc.unit (d : LDesc) : Nat :=
  let ok (k : Nat) : Bool := (d.ppa + d.len - 1) / (4096 * 2 ^ k) - d.ppa / (4096 * 2 ^ k) + 1 ≤ 64
  4096 * 2 ^ (((List.range 24).find? ok).getD 24)

/-- The number of fragments, and the fragment of a line. -/
def LDesc.frags (d : LDesc) : Nat := (d.ppa + d.len - 1) / d.unit - d.ppa / d.unit + 1
def LDesc.fragOf (d : LDesc) (line : Nat) : Nat := 64 * line / d.unit - d.ppa / d.unit

/-- The bytes of the range in a line: offset and count. -/
def LDesc.part (d : LDesc) (line : Nat) : Nat × Nat :=
  let off := d.ppa - 64 * line
  (off, min 64 (d.ppa + d.len - 64 * line) - off)

/-- Lines and bytes of fragment i. -/
def LDesc.fragLines (d : LDesc) (i : Nat) : List Nat :=
  let lo := max d.firstLine ((d.ppa / d.unit + i) * d.unit / 64)
  let hi := min d.lastLine (((d.ppa / d.unit + i + 1) * d.unit - 1) / 64)
  (List.range (hi + 1 - lo)).map (· + lo)
def LDesc.fragBytes (d : LDesc) (i : Nat) : Nat :=
  min (d.ppa + d.len) ((d.ppa / d.unit + i + 1) * d.unit) - max d.ppa ((d.ppa / d.unit + i) * d.unit)

/-- A bit of a fragment map set. -/
def mapSet (w : Word) (i : Nat) : Word := w ||| BitVec.ofNat 64 (2 ^ i)

/-- Every fragment of a descriptor. -/
def LDesc.all (d : LDesc) : Word := BitVec.ofNat 64 (2 ^ d.frags - 1)

/-! ## Checks at submission (R410) -/

/-- A flask address (R408): the segment it names and the offset, or a reserved bit set. -/
def flaskAddrOk (a : Word) : Bool := bitsOf a 48 16 == 0 && bitsOf a 41 3 == 0

/-- The PPA a flask address names, and its segment. -/
def State.flaskAddr (s : State) (f : Nat) (a : Word) : Option (Nat × Seg) :=
  match tblFind s.flasks f with
  | some k => (match (k.segs[bitsOf a 44 4]?).bind segOf with
    | some g => some (g.lo + bitsOf a 0 41, g)
    | none => none)
  | none => none

/-- The blocks of a range. -/
def blocksOf (a len : Nat) : List Nat := if len = 0 then [] else (List.range (blockOf (a + len - 1) - blockOf a + 1)).map (· + blockOf a)

/-- A block is QUIESCING or SANITIZING. -/
def State.blockQuiet (s : State) (b : Nat) : Bool :=
  match s.extOf b with | some (_, e) => e.st == .quiescing || e.st == .sanitizing | none => false

/-- R410 step 1. -/
def ladleFields (l : Nat) (c : CmdArgs) : Bool :=
  let w := c.payload
  let mask (i m : Nat) : Bool := (w.getD i 0).toNat &&& m == (w.getD i 0).toNat
  let op := dOp w
  mask 0 0xFFFF000F13FF && mask 3 0xFFFFFFFF && mask 4 0xFFFFFFFFFFFF && w.getD 6 0 == 0 && w.getD 7 0 == 0 &&
  c.tag == 0 && c.param0 == 0 && c.param1 == 0 && c.response == 0 &&
  (if l % 8 < 4 then op == 1 || op == 3 || op == 4 || op == 5 else op == 2) &&
  flaskAddrOk (w.getD 2 0) && (op != 3 || flaskAddrOk (w.getD 1 0)) &&
  (op != 4 || ((w.getD 1 0).toNat % 64 == 0 && (w.getD 2 0).toNat % 64 == 0 && dLen w % 64 == 0)) &&
  1 ≤ dFlask w && dFlask w ≤ 4095

/-- R410: the status, and where every check passes the descriptor with its PPAs (R411). -/
def State.ladleCheck (s : State) (h l : Nat) (c : CmdArgs) : Except Nat (List Word) :=
  let w := c.payload
  let f := dFlask w
  let len := dLen w
  let op := dOp w
  if !ladleFields l c then .error 0x21
  else if op = 4 ∧ ramDefined (dRamop w) = false then .error 0x46
  else if (match tblFind s.flasks f with | some k => k.owner != h | none => true) then .error 0x22
  else
    let dst := s.flaskAddr f (w.getD 2 0)
    let src := if op = 3 then s.flaskAddr f (w.getD 1 0) else dst
    match dst, src with
    | some (p, g), some (p', g') =>
      let within (p : Nat) (g : Seg) : Bool := p + len ≤ g.hi
      let need := if op = 2 then g.r else g.w
      if !(within p g && within p' g') then .error 0x42
      else if g.device || !need || (op == 3 && (g'.device || !g'.r || !disjoint p p' len)) then .error 0x43
      else
        let bs := blocksOf p len ++ (if op = 3 then blocksOf p' len else [])
        if !bs.all (fun b => s.holds h b) then .error (if bs.any (fun b => s.blockQuiet b) then 0x44 else 0x28)
        else if dPeer w && !(s.reg (aLd 0)).getLsbD (l / 8) then .error 0x45
        else .ok ((w.take 6) ++ [BitVec.ofNat 64 p, if op = 3 then BitVec.ofNat 64 p' else 0])
    | _, _ => .error 0x42

/-! ## Ladles in service (R418) -/

/-- Ladles of a gate and direction in service, in rising order. -/
def State.ladlesOf (s : State) (l : Nat) : List Nat :=
  ((List.range 4).map (· + l / 4 * 4)).filter (fun k => !(s.ladle k).out && !(s.ladle k).testing)

/-- The ladle that serves the queues bound to ladle l (Table 22.6). -/
def State.servedBy (s : State) (l : Nat) : Option Nat :=
  if !(s.ladle l).out && !(s.ladle l).testing then some l else (s.ladlesOf l).head?

/-- A descriptor of a ladle changed. -/
def State.modDesc (s : State) (l q seq : Nat) (f : LDesc → LDesc) : State :=
  s.modLadle l (fun x => { x with descs := x.descs.map (fun d => if d.q = q ∧ d.seq = seq then f d else d) })

/-- A descriptor ends: its record carries STATUS and FAILMAP (R416). -/
def State.descEnd (s : State) (l : Nat) (d : LDesc) (status : Nat) (failmap : Word) : State :=
  let s1 := s.modLadle l (fun x => { x with descs := x.descs.filter (fun e => !(e.q == d.q && e.seq == d.seq)) })
  let s2 := if status = 0x40 ∨ status = 0x41 then s1.bump32 (aLd (0x8200 + 4 * l)) 1 else s1
  (s2.modJ d.q d.seq (fun e => { e with failmap := failmap })).jDone d.q d.seq status 0

/-- A descriptor accepted to its ladle, or ended FAILED where none is in service. -/
def State.ladleAccept (s : State) (l q seq : Nat) (w : List Word) : State :=
  let d : LDesc := { q := q, seq := seq, w := w, next := (w.getD 6 0).toNat / 64 }
  match s.servedBy l with
  | some k => s.modLadle k (fun x => { x with descs := x.descs ++ [d] })
  | none => s.descEnd l d 0x41 d.all

/-- The poison mark written over a failed fragment's pool lines (R415), as far as the homes accept. -/
def State.poisonFrag (s : State) (d : LDesc) (i : Nat) : State :=
  (d.fragLines i).foldl (fun s line =>
    let (off, len) := d.part line
    match s.homeUp line with
    | some k =>
      if len = 64 then s.homeReceive { kind := .wrf, aid := aidSet, home := k, line := line, poison := true }
      else s.homeReceive { partMsg aidSet k line off len 0 false with poison := true }
    | none => s) s

/-! ## The gate's requester tags (R457) -/

/-- The tags that the tag format of an LD spells: 8-bit tags unless Device Control 2 enables wider ones (log entry 101). -/
def Hd.tagLimit (d : Hd) : Nat := if d.devCtl2.getLsbD 12 then 4096 else 256

/-- The lowest tag of the gate neither open nor quarantined that an LD may use; none where the gate holds 4096 open. -/
def State.nextTag (s : State) (h : Nat) : Option Nat :=
  let x := s.gate (h / 16)
  (List.range (x.tags.length + 1)).find? (fun t => (tblFind x.tags t).isNone && t < (s.hd h).tagLimit)

/-- A host-side read of `n` bytes at host address `a` opened. -/
def State.openTag (s : State) (g t h l a n : Nat) : State :=
  s.modGate g (fun x => { x with tags := tblSet x.tags t { hd := h, ladle := l, addr := a, len := n } })

/-- Whether an LD may issue host-side requests (R460, R463, R464, R478, Table 19.2). -/
def State.mayIssue (s : State) (h : Nat) : Bool :=
  let x := s.gate (h / 16)
  let d := s.hd h
  x.up && !x.retraining && !x.waitTags && !x.releasing && d.bme && !d.flr && !d.d3hot

/-! ## Issue (R413, R412) -/

/-- The submitter may still reach a block of an accepted descriptor (R412). -/
def State.stillHolds (s : State) (h b : Nat) : Bool :=
  s.holds h b || (match s.extOf b with | some (_, e) => e.st == .quiescing | none => false)

/-- Fragment i of a descriptor fails. -/
def LDesc.failed (d : LDesc) (i : Nat) (noMark : Bool) : LDesc :=
  { d with fail := mapSet d.fail i, noMark := if noMark then mapSet d.noMark i else d.noMark }

/-- Source lines of a COPY_POOL unit: its first source byte and its lines. -/
def LDesc.srcOf (d : LDesc) (r : LReq) : Nat × List Nat :=
  let a := d.src + (64 * r.line + r.off - d.ppa)
  (a, if (a + r.len - 1) / 64 = a / 64 then [a / 64] else [a / 64, a / 64 + 1])

/-- The submitter may still reach the blocks of a unit, its source lines among them (R412). -/
def State.reaches (s : State) (d : LDesc) (r : LReq) : Bool :=
  s.stillHolds d.hd (blockOf (64 * r.line)) && (d.op != 3 || (d.srcOf r).2.all (fun k => s.stillHolds d.hd (blockOf (64 * k))))

/-- The FILL pattern over a unit: byte j of the range is byte j mod 8 of the pattern (Table 17.4). -/
def LDesc.fillOf (d : LDesc) (r : LReq) : Nat :=
  leNat ((List.range r.len).map (fun i => BitVec.ofNat 8 ((d.w.getD 1 0).toNat / 2 ^ (8 * ((64 * r.line + r.off + i - d.ppa) % 8)))))

/-- Pool reads of a unit sent; none where a credit is missing. -/
def State.poolReads (s : State) (l : Nat) : List Nat → Option (List Nat × State)
  | [] => some ([], s)
  | line :: t =>
    match s.homeUp line with
    | none => none
    | some k =>
      if !s.hasCredit (aidLadle l) k then none
      else
        let (tag, s1) := s.newTag
        let s2 := (s1.issue { aid := aidLadle l, home := k, line := line, store := false, tag := tag }).send
          { kind := .rdc, aid := aidLadle l, home := k, line := line, tag := tag }
        (match s2.poolReads l t with
        | some (ts, s3) => some (tag :: ts, s3)
        | none => none)

/-- A host-side write sent through the gate: without ORDERED it carries Relaxed Ordering when Device Control enables it, and ID-Based
Ordering when Device Control 2 does (R438, R467; log entry 105). -/
def State.hostSend (s : State) (d : LDesc) (line off len v : Nat) (poison : Bool) : State :=
  let x := s.hd d.hd
  let m : HostWrite :=
    { hd := d.hd, addr := d.hostAddr line off, len := len, data := BitVec.ofNat 512 v, poison := poison,
      relaxed := !dOrdered d.w && x.devCtl.getLsbD 4, ido := x.devCtl2.getLsbD 8 }
  s.modGate (d.hd / 16) (fun g => { g with wrote := some m, writes := g.writes + 1 })

/-- The host-side write of a COPY_OUT unit whose data is there; it waits while the LD may issue no request (Table 19.5), and is not sent
where its data is bad (R415). -/
def State.hostWrite (s : State) (l : Nat) (d : LDesc) (r : LReq) (v : Nat) (bad : Bool) : State :=
  let put (f : LDesc → LDesc) (s : State) : State := s.modDesc l d.q d.seq f
  let drop (e : LDesc) : LDesc := { e with reqs := e.reqs.filter (fun x => x.line != r.line) }
  if !s.reaches d r then put (fun e => (drop e).failed r.frag true) s
  else if bad then put (fun e => { (drop e).failed r.frag false with unsent := e.unsent ++ [r.line] }) s
  else if s.mayIssue d.hd then put drop (s.hostSend d r.line r.off r.len v false)
  else put (fun e => { e with reqs := e.reqs.map (fun x => if x.line = r.line then { x with ph := .data v bad } else x) }) s

/-- The lines of a failed fragment not written at the host are sent with poisoned data, while the link is up (R415). -/
def State.hostPoison (s : State) (d : LDesc) (i : Nat) : State :=
  if (s.gate (d.hd / 16)).up then
    (d.unsent.filter (fun line => d.fragOf line == i)).foldl (fun s line => s.hostSend d line (d.part line).1 (d.part line).2 0 true) s
  else s

/-- Host-side writes held over a retrain of head g go (R461). -/
def State.hostPush (s : State) (g : Nat) : State :=
  (List.range 8).foldl (fun s i =>
    let l := 8 * g + i
    (s.ladle l).descs.foldl (fun s d => if d.op = 2 then d.reqs.foldl (fun s r => match r.ph with
      | .data v bad => s.hostWrite l d r v bad
      | _ => s) s else s) s) s

/-- The write of a unit whose data is there: sent when a credit is free; a home out of service fails the fragment (R415). -/
def State.unitWrite (s : State) (l : Nat) (d : LDesc) (r : LReq) (v : Nat) (bad : Bool) : State :=
  let put (f : LDesc → LDesc) (s : State) : State := s.modDesc l d.q d.seq f
  let drop (e : LDesc) : LDesc := { e with reqs := e.reqs.filter (fun x => x.line != r.line) }
  let keep : LDesc → LDesc := fun e => { e with reqs := e.reqs.map (fun x => if x.line = r.line then { x with ph := .data v bad } else x) }
  if !s.reaches d r then put (fun e => (drop e).failed r.frag true) s
  else if bad ∧ d.op ≠ 4 then put (fun e => (drop e).failed r.frag false) s
  else
    match s.homeUp r.line with
    | none => put (fun e => (drop e).failed r.frag false) (s.refused r.line)
    | some k =>
      let m : Msg :=
        if d.op = 4 then { kind := .ram, aid := aidLadle l, home := k, line := r.line, data := BitVec.ofNat 512 v, op := BitVec.ofNat 4 (dRamop d.w), poison := bad }
        else if r.len = 64 then { kind := .wrf, aid := aidLadle l, home := k, line := r.line, data := BitVec.ofNat 512 v }
        else partMsg (aidLadle l) k r.line r.off r.len v false
      match s.post m with
      | none => put keep s
      | some s1 =>
        put (fun e =>
          let e1 : LDesc := { e with reqs := e.reqs.map (fun x => if x.line = r.line then { x with ph := .write (s1.tags - 1) } else x) }
          if bad then e1.failed r.frag false else e1) s1

/-- Units whose data waits for a credit are sent when they can be. -/
def State.ladlePush (s : State) (l : Nat) : State :=
  (s.ladle l).descs.foldl (fun s d => d.reqs.foldl (fun s r => match r.ph with
    | .data v bad => if d.op = 2 then s.hostWrite l d r v bad else s.unitWrite l d r v bad
    | _ => s) s) s

/-- The end of a descriptor whose fragments are all recorded; ORDERED first reads at the last host address (R438, R416). -/
def State.ladleEnd (s : State) (l : Nat) (d : LDesc) : State :=
  if d.done ≠ d.all then s
  else if d.op = 2 ∧ dOrdered d.w = true ∧ d.lastDone = false then
    match d.lastRead, s.nextTag d.hd with
    | none, some t => if s.mayIssue d.hd then (s.openTag (d.hd / 16) t d.hd l (d.hostAddr d.firstLine (d.part d.firstLine).1 + d.len - 1) 0).modDesc l d.q d.seq (fun e => { e with lastRead := some t }) else s
    | _, _ => s
  else s.descEnd l d (if d.fail = 0 then 0 else if d.fail = d.all then 0x41 else 0x40) d.fail

/-- One request issued: the next line of the current descriptor (R413). -/
def State.ladleIssue (s : State) (l : Nat) : State :=
  let x := s.ladle l
  if !x.opened || s.onHold || x.budget == some 0 || x.out || x.testing || s.isHeld [30, 31] l then s
  else
    match x.descs.find? (fun d => d.next ≤ d.lastLine) with
    | none => s
    | some d =>
      let line := d.next
      let i := d.fragOf line
      let (off, len) := d.part line
      let fwd (f : LDesc → LDesc) (s : State) : State := s.modDesc l d.q d.seq (fun e => f { e with next := line + 1, begun := mapSet e.begun i })
      let pay (s : State) : State := s.modLadle l (fun x => { x with budget := x.budget.map (· - len) })
      let r : LReq := { frag := i, line := line, off := off, len := len, ph := .data 0 false }
      let with_ (ph : LPhase) (e : LDesc) : LDesc := { e with reqs := e.reqs ++ [{ r with ph := ph }] }
      if s.course < dStart d.w then s
      else if dFence d.w && (x.descs.takeWhile (fun e => !(e.q == d.q && e.seq == d.seq))).any (fun e => e.q == d.q) then s
      else if d.done.getLsbD i then s.modDesc l d.q d.seq (fun e => { e with next := line + 1 })
      else if !s.reaches d r then fwd (fun e => e.failed i true) s
      else if d.hostSide && !s.mayIssue d.hd then s
      else if d.op = 1 ∨ d.op = 4 then
        match s.nextTag d.hd with
        | some t => pay (fwd (with_ (.host t)) (s.openTag (d.hd / 16) t d.hd l (d.hostAddr line off) len))
        | none => s
      else if d.op = 5 then
        let s1 := pay (fwd (with_ (.data (d.fillOf r) false)) s)
        s1.unitWrite l d r (d.fillOf r) false
      else
        let lines := if d.op = 2 then [line] else (d.srcOf r).2
        if lines.any (fun k => (s.homeUp k).isNone) then
          fwd (fun e => { e.failed i false with unsent := if d.op = 2 then e.unsent ++ [line] else e.unsent }) s
        else
          match s.poolReads l lines with
          | some (ts, s1) => pay (fwd (with_ (.reads ts [])) s1)
          | none => s

/-- The bytes of a unit from the source lines that have come. -/
def LDesc.gather (d : LDesc) (r : LReq) (ts : List Nat) (got : List (Nat × LineData × Bool)) : Nat :=
  let at? (t : Nat) : Nat := match got.find? (fun e => e.1 == t) with | some (_, v, _) => v.toNat | none => 0
  let a := if d.op = 3 then (d.srcOf r).1 else 64 * r.line + r.off
  let joined := at? (ts.getD 0 0) + (match ts[1]? with | some t => 2 ^ 512 * at? t | none => 0)
  joined / 2 ^ (8 * (a % 64)) % 2 ^ (8 * r.len)

/-- Pool data reaches a ladle (R415): COPY_OUT sends it to the host, COPY_POOL writes it. -/
def State.ladleData (s : State) (l : Nat) (m : Msg) : State :=
  let s1 := s.complete m.aid m.tag
  let hit (r : LReq) : Bool := match r.ph with | .reads ts _ => ts.contains m.tag | _ => false
  match (s.ladle l).descs.find? (fun d => d.reqs.any hit) with
  | none => s1
  | some d =>
    match d.reqs.find? hit with
    | none => s1
    | some r =>
      match r.ph with
      | .reads ts got =>
        let got' := got ++ [(m.tag, m.data, m.poison)]
        if got'.length < ts.length then
          s1.modDesc l d.q d.seq (fun e => { e with reqs := e.reqs.map (fun x => if x.line = r.line then { x with ph := .reads ts got' } else x) })
        else
          let bad := got'.any (fun e => e.2.2)
          if d.op = 2 then s1.hostWrite l d r (d.gather r ts got') bad else s1.unitWrite l d r (d.gather r ts got') bad
      | _ => s1

/-- A Cmp reaches a ladle: its write is complete. -/
def State.ladleCmp (s : State) (l : Nat) (m : Msg) : State :=
  let s1 := (s.complete m.aid m.tag).modLadle l (fun x =>
    { x with descs := x.descs.map (fun d => { d with reqs := d.reqs.filter (fun r => r.ph != .write m.tag) }) })
  s1.ladlePush l

/-- FRAGMENT_COMPLETE: fragment i of the first descriptor whose requests for it are all done is recorded (R414 to R416). -/
def State.fragEnd (s : State) (l i : Nat) : State :=
  let done? (d : LDesc) : Bool := i < d.frags && !d.done.getLsbD i && (d.fragLines i).all (fun line => line < d.next) && !d.reqs.any (fun r => r.frag == i)
  match (s.ladle l).descs.find? done? with
  | none =>
    (match (s.ladle l).descs.find? (fun d => d.done == d.all) with
    | some d => s.ladleEnd l d
    | none => s)
  | some d =>
    let failed := d.fail.getLsbD i
    let s1 :=
      if failed then
        let s0 := if d.noMark.getLsbD i then s else if d.op = 2 then s.hostPoison d i else s.poisonFrag d i
        s0.raise { src := 31, unit := unitLadle l } l
      else (s.bump64 (aLd (0x8000 + 8 * l)) (d.fragBytes i)).modJ d.q d.seq (fun e => { e with fragdone := mapSet e.fragdone i })
    let s2 := s1.modDesc l d.q d.seq (fun e => { e with done := mapSet e.done i })
    s2.ladleEnd l { d with done := mapSet d.done i }

/-! ## Host-side reads (R458, R459) -/

/-- The unit, or the final read, of a ladle that a tag serves. -/
def LDesc.onTag (d : LDesc) (t : Nat) : Option LReq := d.reqs.find? (fun r => r.ph == .host t)

/-- A host-side read ends: its data goes on to the pool, or its fragment fails (R415). -/
def State.hostGot (s : State) (l h t : Nat) (data : LineData) (bad : Bool) : State :=
  match (s.ladle l).descs.find? (fun d => d.hd == h && ((d.onTag t).isSome || d.lastRead == some t)) with
  | none => s
  | some d =>
    match d.onTag t with
    | some r => s.unitWrite l d r (data.toNat % 2 ^ (8 * r.len)) bad
    | none => (s.modDesc l d.q d.seq (fun e => { e with lastRead := none, lastDone := true })).ladleEnd l { d with lastDone := true }

/-- A tag leaves the tracker. -/
def State.freeTag (s : State) (g t : Nat) : State := (s.modGate g (fun x => { x with tags := tblDel x.tags t })).note (.gt g)

/-- A tag is quarantined until step 4 of the 64th boundary (R459). -/
def State.quarantine (s : State) (g t : Nat) : State :=
  (s.modGate g (fun x => { x with tags := x.tags.map (fun e => if e.1 = t then (t, { e.2 with left := some 64 }) else e) })).note (.gt g)

/-- A completion arrives (R459, R463). The gate discards one on an Insecure IDE stream, and its read times out (R469). -/
def State.hostCompletion (s : State) (g t : Nat) (data : LineData) (st : CplStatus) : State :=
  match tblFind (s.gate g).tags t with
  | none => s
  | some e =>
    let s1 := s.freeTag g t
    if (s.gate g).ideBad.contains (e.hd % 16) || (s.gate g).ideBad.contains 16 then s
    else if e.left.isSome then (s1.bump32 (aGt g 0x4014) 1).mark 0x0040 (unitHd e.hd) t 0 0 0
    else if e.discard then s1
    else s1.hostGot e.ladle e.hd t data (st != .ok)

/-- A read times out (R458). -/
def State.hostTimeout (s : State) (g t : Nat) : State :=
  match tblFind (s.gate g).tags t with
  | none => s
  | some e =>
    if e.left.isSome then s
    else
      let s1 := (((s.bump32 (aGt g 0x4010) 1).quarantine g t).raiseAt 26 (unitHd e.hd)).modHd e.hd (fun d => { d with aer := d.aer ||| 0x4000 })
      if e.discard then s1 else s1.hostGot e.ladle e.hd t 0 true

/-! ## Ends by a head or function event (R460, R462), and handing over (R418) -/

/-- The requests of a descriptor dropped: messages of its units still on their way to a home end. -/
def State.dropUnits (s : State) (l : Nat) (d : LDesc) : State :=
  d.reqs.foldl (fun s r =>
    let cut (s : State) (t : Nat) : State :=
      { s with net := s.net.filter (fun m => !(m.aid == aidLadle l && m.tag == t && isReqKind m.kind)) }.complete (aidLadle l) t
    match r.ph with
    | .reads ts _ => ts.foldl cut s
    | .write t => if d.op = 4 then s else cut s t
    | _ => s) s

/-- A descriptor with host-side requests ends with a status of a head or function event (Table 19.6). -/
def State.descCut (s : State) (l : Nat) (d : LDesc) (status : Nat) : State :=
  let s1 := s.dropUnits l d
  let left := d.all &&& ~~~(d.done &&& ~~~d.fail)
  let s2 := if d.op = 1 then
      (List.range d.frags).foldl (fun s i => if d.begun.getLsbD i && !d.done.getLsbD i then s.poisonFrag d i else s) s1
    else s1
  s2.descEnd l d status left

/-- Every descriptor with host-side requests of an LD ends. -/
def State.descsCut (s : State) (h status : Nat) : State :=
  (List.range 8).foldl (fun s i =>
    let l := h / 16 * 8 + i
    ((s.ladle l).descs.filter (fun d => d.hd == h && d.hostSide)).foldl (fun s d => s.descCut l d status) s) s

/-- The descriptors of a ladle handed over (R418). -/
def State.ladleHand (s : State) (l : Nat) : State :=
  let ds := (s.ladle l).descs
  let s0 := ds.foldl (fun s d => s.dropUnits l d) s
  let g := l / 8
  let s1 := (s0.modGate g (fun x => { x with tags := x.tags.map (fun e => if e.2.ladle = l then (e.1, { e.2 with discard := true }) else e) })).modLadle l
    (fun x => { x with descs := [] })
  ds.foldl (fun s d =>
    match (s.ladlesOf l).find? (· ≠ l) with
    | none => s.descEnd l d 0x41 (d.all &&& ~~~(d.done &&& ~~~d.fail))
    | some k =>
      let d0 : LDesc := { d with next := d.firstLine, reqs := [], lastRead := none, unsent := [], fail := d.fail &&& d.done, noMark := d.noMark &&& d.done }
      let d1 : LDesc := if d.op = 4 then { d0 with done := d.all, fail := (d.all &&& ~~~d.done) ||| d0.fail } else d0
      let s' := s.modLadle k (fun x => { x with descs := x.descs ++ [d1] })
      if d.op = 4 then s'.ladleEnd k d1 else s') s1

/-- A ladle out of service: its descriptors are handed over, and its AID is dead (R310, R418, R517). -/
def State.ladleOut (s : State) (l : Nat) : State := ((s.modLadle l (fun x => { x with out := true })).ladleHand l).declareDead (aidLadle l)

/-! ## The rows -/

/-- LADLE_ISSUE (R413). -/
def execLadleIssue (l : Fin 64) (s : State) : Host.Outcome State Fault Refusal := .next (s.ladleIssue l.val)

/-- FRAGMENT_COMPLETE (R414). -/
def execFragmentComplete (l i : Fin 64) (s : State) : Host.Outcome State Fault Refusal := .next (s.fragEnd l.val i.val)

/-- LADLE_RESET (R519): a BLK reaction on the ladle is due; the ladle is out of service until its self-test has passed. -/
def execLadleReset (l : Fin 64) (s : State) : Host.Outcome State Fault Refusal :=
  .next (
    if s.fc.blkLd.contains l.val then
      (((s.modFc (fun f => { f with blkLd := setDel f.blkLd l.val })).modLadle l.val (fun x => { x with testing := true })).ladleHand l.val).declareDead
        (aidLadle l.val)
    else s)

/-- LADLE_SELFTEST_END (R519). -/
def execLadleSelftestEnd (l : Fin 64) (pass : Bool) (s : State) : Host.Outcome State Fault Refusal :=
  .next (
    if (s.ladle l.val).testing then
      let s1 : State := if pass then { s with dead := setDel s.dead (aidLadle l.val) } else s
      s1.modLadle l.val (fun x => { x with testing := false, out := !pass })
    else s)

/-- HOST_COMPLETION (R459). -/
def execHostCompletion (g : Fin 8) (tag : Nat) (data : LineData) (st : CplStatus) (s : State) : Host.Outcome State Fault Refusal :=
  .next (s.hostCompletion g.val tag data st)

/-- COMPLETION_TIMEOUT (R458). -/
def execCompletionTimeout (g : Fin 8) (tag : Nat) (s : State) : Host.Outcome State Fault Refusal := .next (s.hostTimeout g.val tag)

end Sys2Proof.Machine
end

