-- ==== Sys2Proof/Machine/Msix.lean ====
section
/-! DEFINITION. A host's own structures of its LD: the MSI-X table of 256 vectors, the pending bits and Function Mask (R455, R570), and the
configuration space (R453, R454, R472). They are not in the block space: a host names a byte of its
own BAR0 as 0x8000_0000 plus its offset, a byte of its LD's configuration space as 0x9000_0000 plus its offset, and, where its head
presents 16 LDs, the fabric manager names a byte of the FM-owned LD's as 0x9100_0000 plus its offset (log entry 24). -/

namespace Sys2Proof.Machine

open Sys2Proof

/-- An entry of a table at reset: masked (R455). -/
def msixMasked : BitVec 128 := BitVec.ofNat 128 (2 ^ 96)

/-- The bits of an entry that hold a value: address, data and mask bit; the rest are reserved. -/
def msixBits : BitVec 128 := BitVec.ofNat 128 0x1FFFFFFFFFFFFFFFFFFFFFFFC

/-- Entry v of the table of an LD. -/
def Hd.msixEntry (d : Hd) (v : Nat) : BitVec 128 := tblGet d.msixTab msixMasked v

/-- Whether a vector is held by its mask bit or by Function Mask. -/
def Hd.msixHeldBack (d : Hd) (v : Nat) : Bool := d.msixFmask || (d.msixEntry v).getLsbD 96

/-- The bytes of an access of 4 or 8 bytes; an access of another width or a misaligned one reaches nothing. -/
def msixBytes (a : Nat) : AccSize → Nat
  | .b4 => if a % 4 = 0 then 4 else 0
  | .b8 => if a % 8 = 0 then 8 else 0
  | _ => 0

/-- Whether an address is one of a host's own structures and not of the block space. -/
def hostOwn (r : Requester) (a : Nat) : Bool := match r with | .hd _ => decide (0x80000000 ≤ a) | _ => false

/-- Message Control of the MSI-X capability, with its ID, next pointer and table size, and Function Mask at [30]. -/
def Hd.msixControl (d : Hd) : Nat := 0x00FF7011 + 2 ^ 30 * b2n d.msixFmask

/-- The bits of Device Control 2 that hold a value, as PCIe lays them out (log entry 24): Completion Timeout Value and Disable, the two
ID-Based Ordering enables, LTR Mechanism Enable at [10], and the requester's tag width. -/
def ctl2Bits : BitVec 16 := 0x171F

/-- Those of Device Control: the error-reporting enables, Enable Relaxed Ordering at [4], payload and read-request sizes, Extended Tag and
No Snoop enables. Initiate FLR at [15] is a row of its own (log entry 105). -/
def ctlBits : BitVec 16 := 0x79FF

/-- The extended capability structures of Table 19.2: the offset of each, its capability ID and the offset of the next. -/
def extCaps : List (Nat × Nat × Nat) :=
  [(0x100, 0x0001, 0x148), (0x148, 0x0003, 0x158), (0x158, 0x0019, 0x300), (0x300, 0x0018, 0x310), (0x310, 0x002E, 0x340),
   (0x340, 0x0030, 0x400), (0x400, 0x0023, 0x440), (0x440, 0x0023, 0x480), (0x480, 0x0023, 0x500), (0x500, 0x0023, 0)]

/-- The header word of an extended capability at an offset; 0 at any other. -/
def extCap (o : Nat) : Nat :=
  match extCaps.find? (fun e => e.1 == o) with
  | some (_, id, next) => id + 2 ^ 16 + 2 ^ 20 * next
  | none => 0

/-- The base-address bits of a BAR word (Table 19.3): 32 MiB at BAR0/1, 64 KiB at BAR2/3, 1 MiB and the enable bit at the expansion ROM.
The FM-owned LD has BAR0/1 only (R453). -/
def barBits (fm : Bool) : Nat → Nat
  | 0x10 => 0xFE000000 | 0x14 => 0xFFFFFFFF
  | 0x18 => if fm then 0 else 0xFFFF0000 | 0x1C => if fm then 0 else 0xFFFFFFFF
  | 0x30 => if fm then 0 else 0xFFF00001
  | _ => 0

/-- The configuration words that the LDs and the FM-owned LD have alike: the Type 0 header (R453), the heads of the capability structures
of Table 19.2, Device Control and Device Control 2, the device serial number, and the DVSEC headers of the vendor DVSEC. -/
def State.confWord (s : State) (bars : Tbl Nat) (ctl ctl2 : BitVec 16) (o : Nat) : Nat :=
  match o with
  | 0 => 0x4A031D7B | 4 => 0x00100000 | 8 => 0x05021001 | 0x2C => 65536 * buildActive s.build + 0x1D7B | 0x34 => 0x40
  | 0x10 => 4 + tblGet bars 0 o
  | 0x40 => 0x00037001 | 0x44 => 8 | 0x70 => 0x00020010 | 0x78 => ctl.toNat | 0x98 => ctl2.toNat
  | 0x14C => (s.reg 0x10).toNat | 0x150 => (s.reg 0x14).toNat
  | 0x504 => 0x01001D7B | 0x508 => 0x0001
  | _ => if o < 0x34 then tblGet bars 0 o else extCap o

/-- The vendor DVSEC's control word (Table 19.8). -/
def State.vendorWord (s : State) (h : Nat) : Nat :=
  2 ^ 31 * b2n (s.hd h).flrSanitizing + 2 ^ 20 * (s.gate (h / 16)).info.rate.toNat + 256 * h + b2n (s.hd h).sanOnFlr

/-- A configuration word of an LD: what R453 gives it beside the FM-owned LD's, with Bus Master Enable, the power state, MSI-X Message
Control and the AER status. -/
def State.ldConfWord (s : State) (h : Nat) (o : Nat) : Nat :=
  let d := s.hd h
  match o with
  | 4 => s.confWord d.bars d.devCtl d.devCtl2 4 + 4 * b2n d.bme
  | 0x18 => 4 + tblGet d.bars 0 o
  | 0x40 => 0x00035001 | 0x44 => 8 + 3 * b2n d.d3hot | 0x50 => d.msixControl
  | 0x104 => d.aer.toNat | 0x50C => s.vendorWord h
  | _ => s.confWord d.bars d.devCtl d.devCtl2 o

/-- The bytes of a configuration access of 1, 2 or 4 bytes; none where it is misaligned or wider. -/
def confBytes (a : Nat) : AccSize → Nat
  | .b1 => 1 | .b2 => if a % 2 = 0 then 2 else 0 | .b4 => if a % 4 = 0 then 4 else 0 | .b8 => 0

/-- The Device Control 2 bits an LD of a head can write: LTR Mechanism Enable only where LD 0 is the head's single LD (R468). -/
def State.ctl2Mask (s : State) (h : Nat) : BitVec 16 :=
  if h % 16 = 0 ∧ (s.gate (h / 16)).info.mld = false then ctl2Bits else ctl2Bits &&& 0xFBFF

/-- Device Control or Device Control 2 after a write of `n` bytes at byte `b` of it. -/
def ctlWrite (old mask : BitVec 16) (b n : Nat) (v : Word) : BitVec 16 :=
  (old &&& ~~~ mask) ||| ((setBits old (8 * b) (min (8 * n) (16 - 8 * b)) v.toNat).setWidth 16 &&& mask)

/-- LTR Mechanism Enable of a head: the FM-owned LD's, or LD 0's of a single-LD head (R468). -/
def State.ltrOn (s : State) (g : Nat) : Bool :=
  if (s.gate g).info.mld then (s.gate g).fmCtl2.getLsbD 10 else (s.hd (16 * g)).devCtl2.getLsbD 10

/-- A read of a host's own structures. -/
def State.hostOwnRead (s : State) (r : Requester) (a : Nat) (sz : AccSize) : Word :=
  match r with
  | .hd h =>
    let d := s.hd h.val
    let n := msixBytes a sz
    if 0x81F00000 ≤ a ∧ a < 0x81F01000 then
      BitVec.ofNat 64 (bitsOf (d.msixEntry ((a - 0x81F00000) / 16)) (8 * (a % 16)) (8 * n))
    else if 0x81F01000 ≤ a ∧ a < 0x81F01020 then
      BitVec.ofNat 64 ((List.range (8 * n)).foldl (fun v i => v + 2 ^ i * b2n (d.msixHeld.contains (8 * (a - 0x81F01000) + i))) 0)
    else if 0x90000000 ≤ a ∧ a < 0x90001000 then
      BitVec.ofNat 64 (s.ldConfWord h.val (a % 4096 - a % 4) / 2 ^ (8 * (a % 4)) % 2 ^ (8 * confBytes a sz))
    else if 0x91000000 ≤ a ∧ a < 0x91001000 ∧ (s.gate (h.val / 16)).info.mld = true then
      let g := s.gate (h.val / 16)
      BitVec.ofNat 64 (s.confWord g.fmBars g.fmCtl g.fmCtl2 (a % 4096 - a % 4) / 2 ^ (8 * (a % 4)) % 2 ^ (8 * confBytes a sz))
    else 0
  | _ => 0

/-- A word of 32 bits after a write of `n` bytes at byte `b` of it; only the bits of a mask change. -/
def laneWrite (old mask b n : Nat) (v : Word) : Nat :=
  let m := mask &&& ((2 ^ (8 * n) - 1) * 2 ^ (8 * b))
  old - (old &&& m) + ((v.toNat * 2 ^ (8 * b)) &&& m)

/-- A configuration write of `n` bytes at offset `a` of an LD: the BARs, Function Mask, Device Control, Device Control 2, the AER status, whose set bits a
written 1 clears, and SANITIZE_ON_FLR. Bus Master Enable, the power state and Initiate FLR have rows of their own. -/
def State.confWrite (s : State) (h a n : Nat) (v : Word) : State :=
  let b := a % 4
  let o := a - b
  match o with
  | 0x50 => if b + n = 4 then s.modHd h (fun d => { d with msixFmask := v.getLsbD (30 - 8 * b) }) else s
  | 0x78 => if b < 2 then s.modHd h (fun d => { d with devCtl := ctlWrite d.devCtl ctlBits b n v }) else s
  | 0x98 => if b < 2 then s.modHd h (fun d => { d with devCtl2 := ctlWrite d.devCtl2 (s.ctl2Mask h) b n v }) else s
  | 0x104 => s.modHd h (fun d => { d with aer := BitVec.ofNat 32 (laneWrite d.aer.toNat (d.aer.toNat &&& laneWrite 0 0xFFFFFFFF b n v) b n 0) })
  | 0x50C => if b = 0 then s.modHd h (fun d => { d with sanOnFlr := v.getLsbD 0 }) else s
  | _ => if barBits false o = 0 then s else
      s.modHd h (fun d => { d with bars := tblSet d.bars o (laneWrite (tblGet d.bars 0 o) (barBits false o) b n v) })

/-- A configuration write to the FM-owned LD. -/
def State.fmConfWrite (s : State) (g a n : Nat) (v : Word) : State :=
  let b := a % 4
  let o := a - b
  match o with
  | 0x78 => if b < 2 then s.modGate g (fun x => { x with fmCtl := ctlWrite x.fmCtl ctlBits b n v }) else s
  | 0x98 => if b < 2 then s.modGate g (fun x => { x with fmCtl2 := ctlWrite x.fmCtl2 ctl2Bits b n v }) else s
  | _ => if barBits true o = 0 then s else
      s.modGate g (fun x => { x with fmBars := tblSet x.fmBars o (laneWrite (tblGet x.fmBars 0 o) (barBits true o) b n v) })

/-- A write of a host's own structures. -/
def State.hostOwnWrite (s : State) (r : Requester) (a : Nat) (sz : AccSize) (v : Word) : State :=
  match r with
  | .hd h =>
    if s.ioHeld then s
    else if 0x81F00000 ≤ a ∧ a < 0x81F01000 then
      let i := (a - 0x81F00000) / 16
      let e (d : Hd) : BitVec 128 := setBits (d.msixEntry i) (8 * (a % 16)) (8 * msixBytes a sz) v.toNat &&& msixBits
      s.modHd h.val (fun d => { d with msixTab := tblSet d.msixTab i (e d) })
    else if confBytes a sz = 0 then s
    else if 0x90000000 ≤ a ∧ a < 0x90001000 then s.confWrite h.val (a - 0x90000000) (confBytes a sz) v
    else if 0x91000000 ≤ a ∧ a < 0x91001000 ∧ (s.gate (h.val / 16)).info.mld = true then
      s.fmConfWrite (h.val / 16) (a - 0x91000000) (confBytes a sz) v
    else s
  | _ => s

end Sys2Proof.Machine
end

