-- ==== Sys2Proof/Machine/HostQueue.lean ====
section
/-! DEFINITION. Host queues, the journal and notices (chapter 18), with the flask commands (R402 to R405): doorbells, consumption, the
execution of a slot, records, the queue commands, and what a takeover or a reset does with the journal (R441). -/

namespace Sys2Proof.Machine

open Sys2Proof

/-! ## Configuration (Table 18.8) -/

/-- The block address of a queue register. -/
def qReg (q o : Nat) : Nat := aQ (q / 256) (q / 16 % 16) (q % 16) o
def nqReg (h o : Nat) : Nat := aNq (h / 16) (h % 16) o

def State.sqLog (s : State) (q : Nat) : Nat := s.fld (qReg q 0x10) 0 4
def State.cqLog (s : State) (q : Nat) : Nat := s.fld (qReg q 0x10) 8 4
def State.qLadle (s : State) (q : Nat) : Nat := s.fld (qReg q 0x10) 16 4
def State.qVector (s : State) (q : Nat) : Nat := s.fld (qReg q 0x10) 24 8
def State.sqBase (s : State) (q : Nat) : Nat := s.reg64 (qReg q 0)
def State.cqBase (s : State) (q : Nat) : Nat := s.reg64 (qReg q 8)

/-- The first line of slot n (R423). -/
def State.slotLine (s : State) (q n : Nat) : Nat := (s.sqBase q + 128 * ((n - 1) % 2 ^ s.sqLog q)) / 64

/-- A doorbell, CQ_HEAD or CMD write ignored. -/
def State.qIgnore (s : State) (q : Nat) : State := s.modHq q (fun h => { h with ignored := satAdd 16 h.ignored 1 })

/-- A queue stops: its CAUSE, its fault, and its QUEUE_STOPPED notice (R427, R429, R443). -/
def State.qStop (s : State) (q cause : Nat) (src : Fin 64) (v : Nat) : State :=
  let h := q / 16
  let s1 := (s.modHq q (fun x => { x with st := .stopped, cause := cause, retries := 0, reread := false, reads := [] })).raise
    (if src = 29 then { src := src, unit := unitHd h, param := v, param2 := q } else { src := src, unit := unitHd h }) q
  s1.notice h 3 [packWord [(0, q), (16, cause)], BitVec.ofNat 64 v]

/-- A DISABLING queue with nothing outstanding is DISABLED (Table 18.9). -/
def HostQ.settle (h : HostQ) : HostQ := if h.st = .disabling ∧ h.entries.isEmpty then { h with st := .disabled } else h

/-! ## Suspension (R439, R440) -/

/-- A cause comes: every queue of the LD that is not DISABLED is SUSPENDED with it. -/
def State.suspend (s : State) (h cause : Nat) : State :=
  let s1 := s.modHd h (fun d => { d with order := d.order.filter (· ≠ cause) ++ [cause] })
  (List.range 16).foldl (fun s i => s.modHq (16 * h + i) (fun x =>
    match x.st with
    | .disabled => x
    | .suspended => { x with cause := cause }
    | _ => { x with st := .suspended, backSt := x.st, backCause := x.cause, cause := cause, reads := [] })) s1

/-- A cause ends. -/
def State.unsuspend (s : State) (h cause : Nat) : State := s.modHd h (fun d => { d with order := d.order.filter (· ≠ cause) })

/-! ## Flask commands (R402, R403) -/

/-- The segment entries of a flask image. -/
def imageSegs (ls : List LineData) : List (Word × Word) :=
  ls.flatMap (fun d => (List.range 4).map (fun i => (lineWord d (2 * i), lineWord d (2 * i + 1))))

/-- Reserved bits of a segment entry (Table 17.1). -/
def segClean (e : Word × Word) : Bool :=
  e.1.toNat &&& 0x800001FFFFFFF000 == e.1.toNat && e.2.toNat &&& 0x1E0000001FFFFFFF == e.2.toNat

/-- The lowest number i of a segment that fails a test. -/
def segBad (segs : List (Word × Word)) (bad : Nat → Word × Word → Bool) : Option Nat :=
  (List.range segs.length).find? (fun i => bad i (segs.getD i (0, 0)))

/-- The lowest flask number not in use (R403). -/
def State.freeFlask (s : State) : Option Nat := ((List.range 4095).map (· + 1)).find? (fun n => (tblFind s.flasks n).isNone)

/-- Steps 3 to 5 of R403 on an image: status and segment. -/
def State.imageCheck (s : State) (h : Nat) (segs : List (Word × Word)) : Nat × Nat :=
  let span (e : Word × Word) : Option Seg := segOf e
  match segBad segs (fun _ e => !segClean e || (bitAt e.1 63 && bitsOf e.2 0 29 == 0)) with
  | some i => (0x21, i)
  | none =>
    match segBad segs (fun _ e => match span e with | some g => !s.holdsRange h g.lo (g.hi - g.lo) | none => false) with
    | some i => (0x28, i)
    | none =>
      match segBad segs (fun i e => match span e with
        | some g => (g.device && g.x) || (List.range i).any (fun j => match span (segs.getD j (0, 0)) with
          | some g' => !disjoint' g g' | none => false)
        | none => false) with
      | some i => (0x25, i)
      | none => (0, 0)
where
  /-- Two segments share no byte. -/
  disjoint' (a b : Seg) : Bool := a.hi ≤ b.lo || b.hi ≤ a.lo

/-- FLASK_LOAD: its status and RESULT; none while a line of the image has still to come. Status 0 leaves it ACCEPTED until the boundary
that applies it. -/
def State.flaskLoad (s : State) (h q seq : Nat) (c : CmdArgs) : Option (Nat × Word) × State :=
  let f0 := c.param0.toNat
  let ppa := c.param1.toNat
  let res (n i : Nat) : Word := packWord [(0, n), (16, i)]
  if !allZero c.payload || 4096 ≤ f0 || 2 ^ 41 ≤ ppa || ppa % 256 ≠ 0 || c.response != 0 then (some (0x21, 0), s)
  else if !s.grantedRange h ppa 256 then (some (0x28, res f0 0), s)
  else
    let num : Except Nat Nat :=
      if f0 = 0 then (match s.freeFlask with | some n => .ok n | none => .error 0x29)
      else match tblFind s.flasks f0 with
        | some k => if k.owner = h then .ok f0 else .error 0x22
        | none => .error 0x22
    match num with
    | .error k => (some (k, res f0 0), s)
    | .ok n =>
      let lines := (List.range 4).map (· + ppa / 64)
      match s.ownGots q lines with
      | .error true => (none, s.ownAsks q lines)
      | .error false => (some (0x21, res f0 0), s)
      | .ok ls =>
        let segs := imageSegs ls
        let (k, i) := s.imageCheck h segs
        if k ≠ 0 then (some (k, res f0 i), s)
        else
          let s1 := if (tblFind s.flasks n).isSome then s
            else { s with flasks := tblSet s.flasks n ⟨h, List.replicate 16 (0, 0)⟩ }
          (some (0, res n 0), { s1 with flaskPend := s1.flaskPend ++ [⟨q, seq, n, some ⟨h, segs⟩⟩] })

/-- A flask of the submitter. -/
def State.ownsFlask (s : State) (h n : Nat) : Bool := match tblFind s.flasks n with | some k => k.owner == h | none => false

/-- FLASK_FREE: the status; 0 leaves it ACCEPTED until the boundary. -/
def State.flaskFree (s : State) (h q seq : Nat) (c : CmdArgs) : Nat × State :=
  let n := c.param0.toNat
  if !allZero c.payload || 4096 ≤ n || c.param1 != 0 || c.response != 0 then (0x21, s)
  else if !s.ownsFlask h n then (0x22, s)
  else if s.pours.any (fun e => e.2.flask == n) then (0x2A, s)
  else (0, { s with flaskPend := s.flaskPend ++ [⟨q, seq, n, none⟩] })

/-- FLASK_QUERY: the 256 bytes in effect. -/
def State.flaskQuery (s : State) (h : Nat) (c : CmdArgs) : Nat × State :=
  let n := c.param0.toNat
  if !allZero c.payload || 4096 ≤ n || c.param1 != 0 || s.respCheck h c 256 = 0x21 then (0x21, s)
  else if !s.ownsFlask h n then (0x22, s)
  else if s.respCheck h c 256 ≠ 0 then (s.respCheck h c 256, s)
  else
    let segs := match tblFind s.flasks n with | some k => k.segs | none => []
    (0, s.ownWords (c.response.toNat / 64) (segs.flatMap (fun e => [e.1, e.2])) 4)

/-- A segment whose blocks its owner no longer holds in GRANTED, RELEASING or QUIESCING loses V (R405). -/
def State.segKeep (s : State) (h : Nat) (e : Word × Word) : Word × Word :=
  match segOf e with
  | some g => if (blocksOf g.lo (g.hi - g.lo)).all (fun b => s.stillHolds h b) then e else (setBits e.1 63 1 0, e.2)
  | none => e

/-- Step 1 of a boundary: accepted flask commands take effect (R404), and segments without a holder end (R405). -/
def State.flasksApply (s : State) : State :=
  let s1 := s.flaskPend.foldl (fun s c =>
    let s' := match c.img with
      | some f => { s with flasks := tblSet s.flasks c.n f }
      | none => { s with flasks := tblDel s.flasks c.n }
    s'.modJ c.q c.seq (fun e => if e.st = .accepted then { e with st := .applied } else e)) { s with flaskPend := [] }
  { s1 with flasks := s1.flasks.map (fun e => (e.1, { e.2 with segs := e.2.segs.map (s1.segKeep e.2.owner) })) }

/-- After the boundary the flask commands that it applied complete, a FLASK_LOAD with the flask number (Table 17.2). -/
def State.flasksDone (s : State) (cs : List FlaskCmd) : State :=
  cs.foldl (fun s c => s.jDone c.q c.seq 0 (if c.img.isSome then BitVec.ofNat 64 c.n else 0)) s

/-! ## Execution of a slot (R426, R432, R433) -/

/-- The entry becomes ACCEPTED or APPLIED. -/
def State.jState (s : State) (q seq : Nat) (st : JSt) : State :=
  s.modJ q seq (fun e => { e with st := st, acceptCourse := s.course % 2 ^ 48 })

/-- The checks and effects of a consumed slot. A FLASK_LOAD whose image has still to come stays TAKEN. -/
def State.runSlot (s : State) (q seq : Nat) (sl : Slot) : State :=
  let h := q / 16
  let c := sl.args
  let fail (k : Nat) : State := s.jDone q seq k 0
  let ends (r : Nat × State) : State :=
    if r.1 = 0 then (r.2.jState q seq .applied).jDone q seq 0 0 else r.2.jDone q seq r.1 0
  let lq := s.qLadle q
  if sl.bad || sl.opcode.toNat ≥ 256 || !allZero sl.res then fail 0x21
  else
    match sl.opcode.toNat with
    | 0x30 =>
      if allZero c.payload && c.param0 == 0 && c.param1 == 0 && c.response == 0 then ends (0, s) else fail 0x21
    | 0x01 =>
      if 8 ≤ lq then fail 0x21
      else
        let l := q / 256 * 8 + lq
        (match s.ladleCheck h l c with
        | .error k => ((s.bump32 (aLd (0x8300 + 4 * l)) 1).jDone q seq k 0).raise { src := 30, unit := unitLadle l } l
        | .ok w => ((s.jState q seq .accepted).modJ q seq (fun e =>
            { e with slot := { e.slot with args := { e.slot.args with payload := w } } })).ladleAccept l q seq w)
    | op =>
      if lq < 15 then fail 0x21
      else match op with
      | 0x10 => ends (s.streamSet h c)
      | 0x11 => ends (s.streamFree h c)
      | 0x12 => ends (s.streamQuery h c)
      | 0x18 =>
        let (k, p, s1) := s.pourOpen h c
        if k = 0 then (s1.jState q seq .applied).jDone q seq 0 (BitVec.ofNat 64 p) else s1.jDone q seq k 0
      | 0x19 =>
        (match s.pourClose h q seq c with
        | (some k, s1) => s1.jDone q seq k 0
        | (none, s1) => s1.jState q seq .applied)
      | 0x1A => ends (s.pourQuery h c)
      | 0x20 =>
        (match s.flaskLoad h q seq c with
        | (none, s1) => s1
        | (some (k, r), s1) =>
          let s2 := s1.modHq q (fun x => { x with reads := [] })
          if k = 0 then s2.jState q seq .accepted else s2.jDone q seq k r)
      | 0x21 =>
        (match s.flaskFree h q seq c with
        | (0, s1) => s1.jState q seq .accepted
        | (k, s1) => s1.jDone q seq k 0)
      | 0x22 => ends (s.flaskQuery h c)
      | _ => fail 0x21

/-- A command queue runs one command at a time: an earlier one is not yet APPLIED (R433). -/
def State.qBlocked (s : State) (q seq : Nat) : Bool :=
  s.qLadle q == 15 && (s.hq q).entries.any (fun e => e.1 < seq && (e.2.st == .taken || e.2.st == .accepted))

/-- Whether a queue consumes a further slot (R428): one at a time, so that none stands TAKEN with its checks still to be made (R432). -/
def State.consumes (s : State) (q : Nat) : Bool :=
  let x := s.hq q
  x.st == .running && x.sqHead < x.sqDb && x.outstanding < 1024 && !x.entries.any (fun e => e.2.st == .taken) && !s.onHold

/-- The checks and the effect of entry n, once its turn has come (R432 step 3, R433). -/
def State.checkSlot (s : State) (q n : Nat) : State :=
  match tblFind (s.hq q).entries n with
  | some e => if e.st ≠ .taken ∨ s.qBlocked q n = true then s else s.runSlot q n e.slot
  | none => s

/-- GT_SQ_HEAD := n, when that moves it (R432 step 2). -/
def State.headTo (s : State) (q n : Nat) : State :=
  s.modHq q (fun x => if x.sqHead < n then { x with sqHead := n } else x)

/-- Slot n is read: the TAKEN entry is written (R432 step 1). -/
def State.slotTake (s : State) (q n : Nat) (sl : Slot) : State :=
  s.modHq q (fun x => { x with retries := 0, reread := false, reads := [], entries := tblSet x.entries n { slot := sl } })

/-- A command of the table as the next slot of its queue: read, taken and, once its turn has come, checked. -/
def State.slotRow (s : State) (q : Nat) (op : Word) (c : CmdArgs) : State :=
  let x := s.hq q
  let n := x.sqHead + 1
  if s.consumes q && (tblFind x.entries n).isNone then
    ((s.slotTake q n { opcode := op, args := c, res := [0, 0], bad := false }).headTo q n).checkSlot q n
  else s

/-! ## Consumption (R425, R428, R429, R432) -/

/-- Slot n as read: line 1 with its SEAL, and line 0 once it matches. -/
inductive SlotRead where
  | busy | differs
  | ok (s : Slot)
  deriving DecidableEq, Repr

/-- What the reads of slot n have found, with the next of them sent. -/
def State.readSlot (s : State) (q n : Nat) : SlotRead × State :=
  let a := s.slotLine q n
  match s.ownGot q (a + 1) with
  | .busy => (.busy, s.ownAsk q (a + 1))
  | .bad => (.differs, s)
  | .ok d1 =>
    if (lineWord d1 7).toNat ≠ n then (.differs, s)
    else
      let mk (ws : List Word) (bad : Bool) : Slot :=
        { opcode := lineWord d1 0, res := [lineWord d1 5, lineWord d1 6], bad := bad,
          args := { payload := ws, tag := lineWord d1 1, param0 := lineWord d1 2, param1 := lineWord d1 3, response := lineWord d1 4 } }
      match s.ownGot q a with
      | .busy => (.busy, s.ownAsk q a)
      | .bad => (.ok (mk (List.replicate 8 0) true), s)
      | .ok d0 => (.ok (mk ((List.range 8).map (lineWord d0)) false), s)

/-- SLOT_CONSUME (R428, R429): the next slot is asked for, or what was read of it is judged. -/
def execSlotConsume (q : Fin 2048) (s : State) : Host.Outcome State Fault Refusal :=
  .next (
    let x := s.hq q.val
    let n := x.sqHead + 1
    if s.consumes q.val ∧ x.retries = 0 ∧ (tblFind x.entries n).isNone then
      match s.readSlot q.val n with
      | (.busy, s1) => s1
      | (.ok sl, _) => s.slotTake q.val n sl
      | (.differs, _) => s.modHq q.val (fun x => { x with retries := 1, torn := satAdd 16 x.torn 1, reads := [] })
    else s)

/-- SEAL_REREAD (R429): a re-read that step 4 of a boundary asks for. -/
def execSealReread (q : Fin 2048) (s : State) : Host.Outcome State Fault Refusal :=
  .next (
    let x := s.hq q.val
    let n := x.sqHead + 1
    if x.st = .running ∧ x.retries ≠ 0 ∧ x.reread = true ∧ s.onHold = false then
      match s.readSlot q.val n with
      | (.busy, s1) => s1
      | (.ok sl, _) => s.slotTake q.val n sl
      | (.differs, _) =>
        if x.retries = 4 then s.qStop q.val 1 29 n
        else s.modHq q.val (fun x => { x with retries := x.retries + 1, reread := false, reads := [] })
    else s)

/-- SLOT_TAKEN (R432 steps 2 and 3): the Cmp of the TAKEN entry's write moves the head, and the oldest slot not yet checked is
checked. -/
def execSlotTaken (q : Fin 2048) (s : State) : Host.Outcome State Fault Refusal :=
  .next (
    let x := s.hq q.val
    if s.onHold then s
    else
      let s1 := if (tblFind x.entries (x.sqHead + 1)).any (fun e => e.st == .taken) then s.headTo q.val (x.sqHead + 1) else s
      let x1 := s1.hq q.val
      match x1.entries.find? (fun e => e.2.st == .taken && e.1 ≤ x1.sqHead) with
      | some e => s1.checkSlot q.val e.1
      | none => s1)

/-! ## Doorbells (R427, R435, R443) -/

/-- SQ_TAIL (Table 18.3). -/
def execSqTail (q : Fin 2048) (v : Word) (s : State) : Host.Outcome State Fault Refusal :=
  .next (
    let x := s.hq q.val
    let t := v.toNat
    if s.ioHeld then s
    else if x.st = .disabled ∨ x.st = .disabling ∨ t ≤ x.sqDb then s.qIgnore q.val
    else if x.sqHead + 2 ^ s.sqLog q.val < t then s.qStop q.val 2 28 t
    else s.modHq q.val (fun x => { x with sqDb := t }))

/-- An interrupt of a ring: sent once, then not before the next head write (R436). -/
def State.ringIrq (s : State) (q : Nat) : State :=
  if (s.hq q).armed then (s.modHq q (fun x => { x with armed := false })).msix (q / 16) (s.qVector q) else s

/-- CQ_HEAD (R435, R436). -/
def execCqHead (q : Fin 2048) (v : Word) (s : State) : Host.Outcome State Fault Refusal :=
  .next (
    let x := s.hq q.val
    let t := v.toNat
    if s.ioHeld then s
    else if x.cqHead < t ∧ t ≤ x.cqTail then
      let s1 := s.modHq q.val (fun x => HostQ.settle { x with cqHead := t, entries := x.entries.filter (fun e => t < e.1), armed := true })
      if t < x.cqTail then s1.ringIrq q.val else s1
    else s.qIgnore q.val)

/-- The line of record n. -/
def State.recordLine (s : State) (q n : Nat) : Nat := (s.cqBase q + 64 * ((n - 1) % 2 ^ s.cqLog q)) / 64

/-- RECORD_WRITE (R434, R436). -/
def execRecordWrite (q : Fin 2048) (s : State) : Host.Outcome State Fault Refusal :=
  .next (
    let x := s.hq q.val
    let n := x.cqTail + 1
    match tblFind x.entries n with
    | some e =>
      if e.st = .done ∧ n ≤ x.cqHead + 2 ^ s.cqLog q.val ∧ x.st ≠ .suspended ∧ s.onHold = false then
        let e1 := { e with sqHead := x.sqHead, st := JSt.written }
        let s1 := s.ownWrite (s.recordLine q.val n) (lineFrom (e1.record n))
        (s1.modHq q.val (fun x => { x with cqTail := n, entries := tblSet x.entries n e1 })).ringIrq q.val
      else s
    | none => s)

/-- NQ_HEAD (R443). -/
def execNqHead (h : Fin 128) (v : Word) (s : State) : Host.Outcome State Fault Refusal :=
  .next (
    let d := s.hd h.val
    let t := v.toNat
    if s.ioHeld then s
    else if d.nqHead < t ∧ t ≤ d.nqTail then
      if t < d.nqTail then (s.modHd h.val (fun d => { d with nqHead := t, nqArmed := false })).msix h.val (s.fld (nqReg h.val 0x408) 24 8)
      else s.modHd h.val (fun d => { d with nqHead := t, nqArmed := true })
    else s)

/-- NOTICE_WRITE (R443, Table 18.7). -/
def execNoticeWrite (h : Fin 128) (s : State) : Host.Outcome State Fault Refusal :=
  .next (
    let d := s.hd h.val
    let n := d.nqTail + 1
    let log := s.fld (nqReg h.val 0x408) 0 4
    match d.notices with
    | x :: rest =>
      if s.fld (nqReg h.val 0x408) 8 1 = 1 ∧ d.order = [] ∧ n ≤ d.nqHead + 2 ^ log ∧ s.onHold = false then
        let line := (s.reg64 (nqReg h.val 0x400) + 64 * ((n - 1) % 2 ^ log)) / 64
        let s1 := s.ownWrite line (lineFrom ([BitVec.ofNat 64 n, packWord [(0, x.kind), (16, d.lost)]] ++ x.words ++ List.replicate 6 0))
        let s2 := s1.modHd h.val (fun d => { d with notices := rest, nqTail := n, lost := 0, nqArmed := false })
        if d.nqArmed then s2.msix h.val (s.fld (nqReg h.val 0x408) 24 8) else s2
      else s
    | [] => s)

/-! ## Queue commands (R440, R445) -/

/-- Writes of the registers of Table 18.8 are accepted from the host domain and from the active quoin's cores (R444). -/
def State.qWriter (s : State) (r : Requester) (h : Nat) : Bool := s.isFw r || (r == .hd (Fin.ofNat 128 h) && !s.ioHeld)

/-- QUEUE_ENABLE. -/
def State.queueEnable (s : State) (r : Requester) (q : Nat) : State :=
  let h := q / 16
  if !s.qWriter r h then s
  else if (s.hq q).st ≠ .disabled then s.qIgnore q
  else
    let sl := s.sqLog q
    let cl := s.cqLog q
    let lq := s.qLadle q
    if (lq < 8 ∨ lq = 15) ∧ 4 ≤ sl ∧ sl ≤ 12 ∧ 4 ≤ cl ∧ cl ≤ 12 ∧ s.grantedRange h (s.sqBase q) (128 * 2 ^ sl) = true ∧
        s.grantedRange h (s.cqBase q) (64 * 2 ^ cl) = true then
      match (s.hd h).order.getLast? with
      | some k => s.modHq q (fun x => { x with sqDb := x.sqHead, st := .suspended, cause := k, backSt := .running, backCause := 0 })
      | none => s.modHq q (fun x => { x with sqDb := x.sqHead, st := .running, cause := 0 })
    else s.modHq q (fun x => { x with cause := 3 })

/-- QUEUE_ENABLE. -/
def execQueueEnable (r : Requester) (q : Fin 2048) (s : State) : Host.Outcome State Fault Refusal := .next (s.queueEnable r q.val)

/-- QUEUE_DISABLE. -/
def State.queueDisable (s : State) (r : Requester) (q : Nat) : State :=
  if !s.qWriter r (q / 16) then s
  else
    let st := (s.hq q).st
    if st = .running ∨ st = .stopped then
      s.modHq q (fun x => HostQ.settle { x with st := .disabling, retries := 0, reread := false, reads := [], entries := x.entries.filter (fun e => e.1 ≤ x.sqHead) })
    else s.qIgnore q

/-- QUEUE_DISABLE. -/
def execQueueDisable (r : Requester) (q : Fin 2048) (s : State) : Host.Outcome State Fault Refusal := .next (s.queueDisable r q.val)

/-- QUEUE_RESUME (R430, R440). -/
def State.queueResume (s : State) (r : Requester) (q : Nat) : State :=
  let x := s.hq q
  if !s.qWriter r (q / 16) then s
  else if x.st = .stopped then
    if s.isHeld [28, 29] q then s.qIgnore q
    else s.modHq q (fun x => { x with st := .running, cause := 0, retries := 0, reread := false, reads := [], sqDb := if x.cause = 2 then x.sqHead else x.sqDb })
  else if x.st = .suspended ∧ (s.hd (q / 16)).order = [] then
    s.modHq q (fun x => HostQ.settle { x with st := x.backSt, cause := x.backCause })
  else s.qIgnore q

/-- QUEUE_RESUME (R430, R440). -/
def execQueueResume (r : Requester) (q : Fin 2048) (s : State) : Host.Outcome State Fault Refusal := .next (s.queueResume r q.val)

/-- A word written through a page, on the bits of a mask (R26, Table 2.1). -/
def pageWrite (p : Page) (old d mask : Reg) : Reg :=
  let v := match p with | .base => d | .set => old ||| d | .clr => old &&& ~~~d | .tog => old ^^^ d
  (old &&& ~~~mask) ||| (v &&& mask)

/-- GT_NQ_CFG (R444). -/
def State.nqCfg (s : State) (r : Requester) (h : Nat) (p : Page) (d : Reg) : State :=
  if !s.qWriter r h then s
  else
    let a := nqReg h 0x408
    let old := s.reg a
    let w := pageWrite p old d 0xFF00010F
    let was := bitAt old 8
    let log := if was then bitsOf old 0 4 else bitsOf w 0 4
    if bitAt w 8 && !(4 ≤ log && log ≤ 12) then s
    else s.setReg a (if was then setBits old 8 1 (bitsOf w 8 1) else w)

/-- GT_NQ_CFG (R444). -/
def execGtNqCfg (r : Requester) (h : Fin 128) (p : Page) (d : Reg) (s : State) : Host.Outcome State Fault Refusal := .next (s.nqCfg r h.val p d)

/-! ## The commands of Table 18.2 as slots -/

/-- STREAM_SET (R583). -/
def execStreamSet (q : Fin 2048) (c : CmdArgs) (s : State) : Host.Outcome State Fault Refusal := .next (s.slotRow q.val 0x10 c)

/-- STREAM_FREE (R583). -/
def execStreamFree (q : Fin 2048) (c : CmdArgs) (s : State) : Host.Outcome State Fault Refusal := .next (s.slotRow q.val 0x11 c)

/-- STREAM_QUERY (R215). -/
def execStreamQuery (q : Fin 2048) (c : CmdArgs) (s : State) : Host.Outcome State Fault Refusal := .next (s.slotRow q.val 0x12 c)

/-- POUR_OPEN (R220). -/
def execPourOpen (q : Fin 2048) (c : CmdArgs) (s : State) : Host.Outcome State Fault Refusal := .next (s.slotRow q.val 0x18 c)

/-- POUR_CLOSE (R222). -/
def execPourClose (q : Fin 2048) (c : CmdArgs) (s : State) : Host.Outcome State Fault Refusal := .next (s.slotRow q.val 0x19 c)

/-- POUR_QUERY (R215). -/
def execPourQuery (q : Fin 2048) (c : CmdArgs) (s : State) : Host.Outcome State Fault Refusal := .next (s.slotRow q.val 0x1A c)

/-- FLASK_LOAD (R403). -/
def execFlaskLoad (q : Fin 2048) (c : CmdArgs) (s : State) : Host.Outcome State Fault Refusal := .next (s.slotRow q.val 0x20 c)

/-- FLASK_FREE (R402). -/
def execFlaskFree (q : Fin 2048) (c : CmdArgs) (s : State) : Host.Outcome State Fault Refusal := .next (s.slotRow q.val 0x21 c)

/-- FLASK_QUERY (R402). -/
def execFlaskQuery (q : Fin 2048) (c : CmdArgs) (s : State) : Host.Outcome State Fault Refusal := .next (s.slotRow q.val 0x22 c)

/-- NOP (R426). -/
def execNop (q : Fin 2048) (c : CmdArgs) (s : State) : Host.Outcome State Fault Refusal := .next (s.slotRow q.val 0x30 c)

/-- LADLE (R410). -/
def execLadle (q : Fin 2048) (c : CmdArgs) (s : State) : Host.Outcome State Fault Refusal := .next (s.slotRow q.val 0x01 c)

/-- MSI_X_SEND (R455): a held message goes when its vector and the function are not masked, master-enable is set and the link is in L0
with no reset of the LD. -/
def execMsiXSend (h : Fin 128) (v : Fin 256) (s : State) : Host.Outcome State Fault Refusal :=
  .next (
    let d := s.hd h.val
    let g := s.gate (h.val / 16)
    if d.msixHeld.contains v.val ∧ d.msixHeldBack v.val = false ∧ d.bme = true ∧ d.flr = false ∧ g.up = true ∧ g.retraining = false then
      s.modHd h.val (fun d => { d with msixHeld := setDel d.msixHeld v.val, msixSent := tblSet d.msixSent v.val (tblGet d.msixSent 0 v.val + 1) })
    else s)

/-! ## Takeover and reset (R441, R559) -/

/-- The fragments of a ladle's descriptors not recorded are performed again (R441, R418). -/
def State.ladleRedo (s : State) (l : Nat) : State :=
  let ds := (s.ladle l).descs
  ds.foldl (fun s d =>
    let s0 := s.dropUnits l d
    let d0 : LDesc := { d with next := d.firstLine, reqs := [], lastRead := none, unsent := [], fail := d.fail &&& d.done, noMark := d.noMark &&& d.done }
    let d1 : LDesc := if d.op = 4 then { d0 with done := d.all, fail := (d.all &&& ~~~d.done) ||| d0.fail } else d0
    let s1 := s0.modDesc l d.q d.seq (fun _ => d1)
    if d.op = 4 then s1.ladleEnd l d1 else s1) s

/-- Every queue's journal entries processed (R441): TAKEN entries are checked again, WRITTEN records are written again. Reads under way
count for nothing. -/
def State.journalReplay (s : State) : State :=
  let s1 := s.queues.foldl (fun s e =>
    e.2.entries.foldl (fun s j =>
      match j.2.st with
      | .taken => (s.headTo e.1 j.1).checkSlot e.1 j.1
      | .written => s.ownWrite (s.recordLine e.1 j.1) (lineFrom (j.2.record j.1))
      | _ => s) (s.modHq e.1 (fun x => { x with reads := [] }))) s
  s1.ladles.foldl (fun s e => s.ladleRedo e.1) s1

end Sys2Proof.Machine
end

