-- ==== Sys2Proof/Machine/Capacity.lean ====
section
/-! DEFINITION. Pool capacity (R246 to R263): blocks and extents, the FM API and LD mailbox commands of Dynamic Capacity, the changes that
take effect at step 1 of a boundary, quiescing and sanitizing. -/

namespace Sys2Proof.Machine

open Sys2Proof

/-! ## Blocks and regions (R246 to R249) -/

/-- Whether a block is FREE. -/
def State.blockFree (s : State) (b : Nat) : Bool := s.carvable b && (s.extOf b).isNone

/-- The carvable blocks of region d. -/
def State.regionBlocks (s : State) (d : Nat) : List Nat :=
  ((List.range (32 * s.kCount)).map (· + d * (32 * s.kCount))).filter (fun b => s.carvable b)

/-- Region, row and group portion of a block; in a WIDE region the row and portion do not bound an extent. -/
def State.blockRegion (s : State) (b : Nat) : Nat := b / (32 * s.kCount)
def State.blockRow (s : State) (b : Nat) : Nat := b / (4 * s.kCount)
def State.blockPortion (s : State) (b : Nat) : Nat := b % (4 * s.kCount) / 12

/-- Whether region d is NEAR, or will be at the next boundary (R257): an extent formed now fits both classes (R248). -/
def State.nearSoon (s : State) (d : Nat) : Bool :=
  s.isNear d || (d < 7 && 3 ≤ s.kCount && (tblGet s.rwcBuf (s.reg 0x24008) 0x24008).getLsbD d)

/-- Whether two blocks may lie in one extent (R248). -/
def State.sameRun (s : State) (a b : Nat) : Bool :=
  s.blockRegion a == s.blockRegion b &&
  (!s.nearSoon (s.blockRegion a) || (s.blockRow a == s.blockRow b && s.blockPortion a == s.blockPortion b))

/-- Whether a run of blocks can be an extent (R248). -/
def State.runOk (s : State) (first len : Nat) : Bool :=
  1 ≤ len && len ≤ 256 && s.carvable (first + len - 1) && s.sameRun first (first + len - 1)

/-- Consecutive blocks gathered into extents (R248, R254). -/
def State.gatherRuns (s : State) : List Nat → List (Nat × Nat)
  | [] => []
  | b :: t =>
    match s.gatherRuns t with
    | (a, n) :: r => if a = b + 1 ∧ n < 256 ∧ s.sameRun b (b + n) = true then (b, n + 1) :: r else (b, 1) :: (a, n) :: r
    | [] => [(b, 1)]

/-- FREE blocks of a region in the order of the Free policy: by address, in a NEAR region group after group. -/
def State.freeOrder (s : State) (d : Nat) : List Nat :=
  let bs := (s.regionBlocks d).filter (fun b => s.blockFree b)
  if s.isNear d then (List.range s.groups.length).flatMap (fun g => bs.filter (fun b => s.blockPortion b == g)) else bs

/-! ## FM API commands (R253 to R257) -/

/-- The answer of a command. -/
def State.answer (s : State) (r : Resp) : State := { s with fw := { s.fw with resp := r } }

/-- The lowest extent number not in use. -/
def State.freeExt (s : State) : Nat := ((List.range (s.extents.length + 1)).find? (fun e => (tblFind s.extents e).isNone)).getD 0

/-- The answer of a command in an LD mailbox. -/
def State.mboxAnswer (s : State) (h : Nat) (r : Resp) : State := s.modHd h (fun d => { d with mbox := r })

/-- An event posted to an LD (R255). -/
def State.postEvent (s : State) (h : Nat) (v : DcEvent) : State := s.modHd h (fun d => { d with events := d.events ++ [v], dcLog := d.dcLog ++ [v] })

/-- An event without an extent, which is no longer there or no longer offered. -/
def DcEvent.without (e : Nat) : DcEvent → Option DcEvent
  | .add l => if setDel l e = [] then none else some (.add (setDel l e))
  | .release x => if x = e then none else some (.release x)

/-- An extent leaves the unanswered events of every LD. -/
def State.dropEvents (s : State) (e : Nat) : State :=
  { s with hds := s.hds.map (fun d => (d.1, { d.2 with events := d.2.events.filterMap (DcEvent.without e) })) }

/-- Extents offered to an LD and not answered. -/
def State.offered (s : State) (h : Nat) : Nat :=
  ((s.hd h).events.map (fun e => match e with | .add l => l.length | .release _ => 0)).foldl (· + ·) 0

/-- Extents carved and offered to an LD in one event (R254, R255). -/
def State.offer (s : State) (h tag : Nat) (runs : List (Nat × Nat)) : State :=
  if 64 < s.offered h + runs.length then s.answer .exhausted
  else
    let (ids, s1) := runs.foldl (fun (acc : List Nat × State) r =>
      let e := acc.2.freeExt
      (acc.1 ++ [e], { acc.2 with extents := tblSet acc.2.extents e { first := r.1, len := r.2, tag := tag, offers := [h] } })) ([], s)
    (s1.postEvent h (.add ids)).answer (.success ids)

/-- The FREE run of a length with the lowest address (log entry 31). -/
def State.freeRun (s : State) (d len : Nat) : Option Nat :=
  (s.regionBlocks d).find? (fun b => s.runOk b len && (List.range len).all (fun i => s.blockFree (b + i)))

/-- Extents with a tag. -/
def State.tagged (s : State) (tag : Nat) : List (Nat × Extent) := s.extents.filter (fun e => e.2.tag == tag)

/-- Initiate Dynamic Capacity Add (R254). -/
def State.dcAdd (s : State) (h : Nat) : AddReq → State
  | .free d n tag =>
    let l := s.freeOrder d.val
    if n = 0 then s.answer .invalidInput
    else if l.length < n then s.answer .exhausted
    else s.offer h tag (s.gatherRuns (l.take n))
  | .contiguous d n tag =>
    if n = 0 ∨ 256 < n ∨ (s.nearSoon d.val ∧ 12 < n) then s.answer .invalidInput
    else match s.freeRun d.val n with
    | some b => s.offer h tag [(b, n)]
    | none => s.answer .exhausted
  | .prescriptive rs tag =>
    let bs := rs.flatMap (fun r => (List.range r.2).map (· + r.1))
    if rs.isEmpty || !rs.all (fun r => s.runOk r.1 r.2) || !bs.all (fun b => s.blockFree b) || bs.eraseDups.length ≠ bs.length then s.answer .invalidInput
    else s.offer h tag rs
  | .shared tag =>
    let es := (s.tagged tag).filter (fun e => e.2.st == .granted && !e.2.holders.contains h && !e.2.offers.contains h && !e.2.join.contains h)
    if es.isEmpty then s.answer .invalidInput
    else if 64 < s.offered h + es.length then s.answer .exhausted
    else
      let s1 := es.foldl (fun s e => { s with extents := tblSet s.extents e.1 { e.2 with offers := e.2.offers ++ [h] } }) s
      (s1.postEvent h (.add (es.map (·.1)))).answer (.success (es.map (·.1)))

/-- An offer to an LD taken back: an extent that no one holds is FREE again (Table 10.3). -/
def State.withdraw (s : State) (h e : Nat) : State :=
  match tblFind s.extents e with
  | none => s
  | some x =>
    let offers := setDel x.offers h
    let s1 := { s with extents := if x.st = ExtSt.offered ∧ offers.isEmpty then tblDel s.extents e else tblSet s.extents e { x with offers := offers } }
    s1.modHd h (fun d => { d with events := d.events.filterMap (fun v => match v with | .add _ => DcEvent.without e v | v => some v) })

/-- Whether an LD holds an extent, counting a change already accepted (R251). -/
def Extent.heldBy (x : Extent) (h : Nat) : Bool := (x.holders.contains h || x.join.contains h) && !x.leave.contains h

/-- The extent that begins at a block, by which commands name it. -/
def State.extAt (s : State) (first : Nat) : Option (Nat × Extent) := s.extents.find? (fun e => e.2.first == first)

/-- Initiate Dynamic Capacity Release (R256, R262). -/
def State.dcRelease (s : State) (h first : Nat) (forced : Bool) : State :=
  match s.extAt first with
  | none => s.answer .invalidInput
  | some (e, x) =>
    if (!x.heldBy h && !x.offers.contains h) || x.st == .quiescing || x.st == .sanitizing then s.answer .invalidInput
    else if !x.heldBy h then (s.withdraw h e).answer (.success [])
    else if forced then State.answer { s with extents := tblSet s.extents e { x with leave := x.leave ++ [h] } } (.success [])
    else
      let s1 : State := { s with extents := tblSet s.extents e { x with asked := setIns x.asked h } }
      (s1.postEvent h (.release e)).answer (.success [])

/-- Add Dynamic Capacity Response (R255): the oldest unanswered offer event of the LD. It completes after the boundary that applies it, and
the mailbox takes no other command until then (log entry 97). -/
def State.dcResponse (s : State) (h : Nat) (firsts : List Nat) : State :=
  match (s.hd h).events.findSome? (fun e => match e with | .add l => some l | .release _ => none) with
  | none => s.mboxAnswer h .invalidInput
  | some ids =>
    let at_ (e : Nat) : Nat := match tblFind s.extents e with | some x => x.first | none => 0
    let acc := ids.filter (fun e => firsts.contains (at_ e) && (match tblFind s.extents e with | some x => x.offers.contains h | none => false))
    let have_ := s.extents.countP (fun e => e.2.heldBy h)
    if !firsts.all (fun t => acc.any (fun e => at_ e == t)) || 512 < have_ + acc.length then s.mboxAnswer h .invalidInput
    else
      let s1 := acc.foldl (fun s e => match tblFind s.extents e with
        | some x => { s with extents := tblSet s.extents e { x with join := x.join ++ [h], offers := setDel x.offers h } }
        | none => s) s
      let s2 := (ids.filter (fun e => !acc.contains e)).foldl (fun s e => match tblFind s.extents e with
        | some x =>
          let offers := setDel x.offers h
          { s with extents := if x.st = ExtSt.offered ∧ offers.isEmpty then tblDel s.extents e else tblSet s.extents e { x with offers := offers } }
        | none => s) s1
      s2.modHd h (fun d => { d with events := d.events.erase (.add ids), mbox := .none, respDue := some acc })

/-- Release Dynamic Capacity by the host (R256, R262). -/
def State.hostRelease (s : State) (h first : Nat) : State :=
  match s.extAt first with
  | none => s.mboxAnswer h .invalidInput
  | some (e, x) =>
    if !x.heldBy h || x.st == .quiescing || x.st == .sanitizing then s.mboxAnswer h .invalidInput
    else
      let s1 : State := { s with extents := tblSet s.extents e { x with leave := x.leave ++ [h] } }
      (s1.modHd h (fun d => { d with events := d.events.erase (.release e) })).mboxAnswer h (.success [])

/-! ## Copies of an extent's lines -/

/-- Whether a line lies in an extent. -/
def Extent.has (x : Extent) (line : Nat) : Bool := x.first ≤ 64 * line / 2 ^ 28 && 64 * line / 2 ^ 28 < x.first + x.len

/-- Lines (by stack-local line) and granules of an extent at keystone k that pass a test of their entries, with those on which a
transaction is open. -/
def State.extLines (s : State) (k : Nat) (x : Extent) (dir : DirSt → Bool) (reg : BitVec 25 → Bool) (txn : Txn → Bool) : List Nat × List Nat :=
  let ks := s.ks k
  let ts := (ks.txns.filter (fun t => t.kind == .client && x.has t.line && txn t)).map (·.sla)
  let ls : List Nat := (ks.dir.filter (fun e => x.has e.2.line && dir e.2.st)).map (fun e => e.1)
  let gs : List Nat := (ks.regions.filter (fun e => x.has (e.2.gran * 64) && reg e.2.vec)).map (fun e => e.1)
  ((ls ++ ts).eraseDups, (gs ++ ts.map (· / 64)).eraseDups)

/-- Internal transactions for lines and granules, at every keystone (R256, R259, R290). -/
def State.addJobs (s : State) (why : JobWhy) (f : Nat → List Nat × List Nat) : State :=
  s.keysUp.foldl (fun s k =>
    let l := f k
    (s.modKs k (fun x => { x with jobs := x.jobs ++ l.1.map (fun i => ⟨false, i, why⟩) ++ l.2.map (fun i => ⟨true, i, why⟩) })).homeRun k) s

/-- Back-Invalidate of every line of an extent that a domain's cache holds (R256): a line it owns is taken back, with its data discarded
where it was the last holder. -/
def State.backInvalidate (s : State) (h : Nat) (x : Extent) (last : Bool) : State :=
  let a := aidHd h
  s.addJobs (.leave h last) (fun k =>
    s.extLines k x (fun st => match st with | .he o => o == a | .hs _ vec => vecHas vec a) (fun vec => vecHas vec a) (fun t => t.req.aid == a))

/-- The end of every reservation on an extent (Table 15.4). -/
def State.endResvsIn (s : State) (x : Extent) : State :=
  { s with
    kss := s.kss.map (fun e => (e.1, { e.2 with resvs := e.2.resvs.filter (fun r => !x.has (r.2 / 64)) }))
    crus := s.crus.map (fun e => (e.1, { e.2 with resv := if e.2.resv.any x.has then none else e.2.resv })) }

/-- Step 1 of a sanitize (R259): every copy of the extent in a host or a crucible is taken back, with its dirty data discarded, and its
lines leave the hearths. -/
def State.purge (s : State) (x : Extent) : State :=
  let s1 : State := { s with
    kss := s.kss.map (fun e => (e.1, { e.2 with
      hearth := e.2.hearth.filter (fun d => !x.has (s.poolUnmap e.1 (64 * d.1) / 64))
      evq := e.2.evq.filter (fun d => !x.has (s.poolUnmap e.1 (64 * d.1) / 64)) })) }
  s1.addJobs .purge (fun k => s1.extLines k x (fun _ => true) (fun _ => true) (fun _ => true))

/-- Step 1 of a sanitize has ended: no home of the extent records a copy of a line of it. -/
def State.purged (s : State) (x : Extent) : Bool :=
  s.keysUp.all (fun k => (s.ks k).dir.all (fun e => !x.has e.2.line) && (s.ks k).regions.all (fun e => !x.has (e.2.gran * 64)) &&
    !(s.ks k).jobs.any (fun j => j.why == .purge))

/-- Lines lo to hi - 1 zero with correct check bits (R259 step 2): written at the memory ports, with any hearth copy invalidated (R349). -/
def State.zeroLines (s : State) (lo hi : Nat) : State :=
  let out (k sl : Nat) : Bool := !(lo ≤ s.poolUnmap k (64 * sl) / 64 && s.poolUnmap k (64 * sl) / 64 < hi)
  { s with
    stack := s.stack.filter (fun c => out (c.1 / 2 ^ 36) (c.1 % 2 ^ 36 / 64))
    stackPoison := s.stackPoison.filter (fun c => out (c / 2 ^ 30) (c % 2 ^ 30))
    kss := s.kss.map (fun e => (e.1, { e.2 with hearth := e.2.hearth.filter (fun d => out e.1 d.1), evq := e.2.evq.filter (fun d => out e.1 d.1) })) }

/-- Every line of an extent. -/
def Extent.lo (x : Extent) : Nat := x.first * 2 ^ 28 / 64
def Extent.hi (x : Extent) : Nat := (x.first + x.len) * 2 ^ 28 / 64

/-- Every line of an extent zero (R259 step 2). -/
def State.zeroExt (s : State) (x : Extent) : State := s.zeroLines x.lo x.hi

/-- The blocks of an extent have been released and sanitized: their data is specified again (R265). -/
def State.specify (s : State) (x : Extent) : State := { s with unspec := s.unspec.filter (fun b => !(x.first ≤ b && b < x.first + x.len)) }

/-- Whether two extents have granules at one keystone (R242, R260): not in different groups' portions of NEAR regions. -/
def State.shareKeys (s : State) (x y : Extent) : Bool :=
  !(s.isNear (s.blockRegion x.first) && s.isNear (s.blockRegion y.first) && s.blockPortion x.first != s.blockPortion y.first)

/-- Whether the keystones of a SANITIZING extent serve it: none that entered SANITIZING before it and has granules at one of them is
still being zeroed (R260), and the first step of its sanitize has ended (R259). -/
def State.served (s : State) (e : Nat) (x : Extent) : Bool :=
  s.purged x && (s.sanitizing.takeWhile (· ≠ e)).all (fun d => match tblFind s.extents d with
    | some y => y.ended || !s.shareKeys x y
    | none => true)

/-! ## Step 1 of a boundary (R251, R258, R259) -/

/-- A range of bytes meets an extent. -/
def Extent.meets (x : Extent) (a len : Nat) : Bool := len != 0 && a < (x.first + x.len) * 2 ^ 28 && x.first * 2 ^ 28 < a + len

/-- A pour refers to an extent: by a segment of its flask or a leaf of its streams (R258). -/
def State.pourRefers (s : State) (p : Pour) (x : Extent) : Bool :=
  (s.segs p.flask).any (fun g => x.meets g.lo (g.hi - g.lo)) ||
  p.streams.any (fun i => let t := s.stream i; x.meets t.leafA (64 * t.size) || x.meets t.leafB (64 * t.size))

/-- An accepted descriptor refers to an extent. -/
def LDesc.refers (d : LDesc) (x : Extent) : Bool := x.meets d.ppa d.len || (d.op == 3 && x.meets d.src d.len)

/-- The changes of one extent at step 1: holders join and leave; without a holder it quiesces and its pours close (R256, R258). -/
def State.extChange (s : State) (e : Nat) : State :=
  match tblFind s.extents e with
  | none => s
  | some x =>
    let holders := (x.join.foldl setIns x.holders).filter (fun h => !x.leave.contains h)
    let asked := x.asked.filter (fun h => !x.leave.contains h)
    let lost := x.holders.filter (fun h => x.leave.contains h)
    let last := holders.isEmpty && (x.holders ++ x.join).any (fun h => x.leave.contains h)
    let st : ExtSt :=
      if x.st = .offered ∨ x.st = .granted ∨ x.st = .releasing then
        (if last then .quiescing else if holders.isEmpty then x.st else if asked.isEmpty then .granted else .releasing)
      else x.st
    let x1 : Extent := { x with holders := holders, asked := asked, join := [], leave := [], st := st, offers := if last then [] else x.offers }
    let s1 := { s with extents := tblSet s.extents e x1 }
    let s2 := lost.foldl (fun s h => s.backInvalidate h x last) (if last then (s1.dropEvents e).endResvsIn x else s1)
    if last then s2.pours.foldl (fun s p => if s.pourRefers p.2 x then s.modPour p.1 (fun y => { y with closed := true }) else s) s2 else s2

/-- A QUIESCING extent that nothing refers to any longer enters SANITIZING; one whose zeroing has ended is FREE (R259). -/
def State.extMove (s : State) (e : Nat) : State :=
  match tblFind s.extents e with
  | none => s
  | some x =>
    if x.st = .quiescing then
      if s.pours.any (fun p => s.pourRefers p.2 x) || s.ladles.any (fun l => l.2.descs.any (fun d => d.refers x)) then s
      else
        let s1 := { s with extents := tblSet s.extents e { x with st := .sanitizing, cursor := x.lo, ended := false },
                           sanitizing := s.sanitizing ++ [e] }
        s1.purge x
    else if x.st = .sanitizing ∧ x.ended = true then
      { s with extents := tblDel s.extents e, sanitizing := s.sanitizing.filter (· ≠ e) }.dropEvents e
    else s

/-- Step 1 for every extent: moves of extents that were there before come first, so that an extent quiesces for a boundary at least. -/
def State.extentsApply (s : State) : State :=
  let ids := s.extents.map (·.1)
  let s1 := ids.foldl (fun s e => s.extChange e) (ids.foldl (fun s e => s.extMove e) s)
  { s1 with hds := s1.hds.map (fun d => match d.2.respDue with
      | some l => (d.1, { d.2 with respDue := none, mbox := .success l })
      | none => d) }

/-- QN_PLACEMENT takes effect (R251, R265): a region whose class a Set Region Placement did not change has unspecified data. -/
def State.placementApply (s : State) (old : Reg) : State :=
  let new := s.reg 0x24008
  let ds := (List.range 7).filter (fun d => old.getLsbD d != new.getLsbD d && !s.placeFm.contains d)
  { s with placeFm := [], unspec := ds.foldl (fun l d => (s.regionBlocks d).foldl setIns l) s.unspec }

/-! ## The rows -/

/-- Get DCD Info (Table 10.5). -/
def execGetDcdInfo (s : State) : Host.Outcome State Fault Refusal :=
  .next (s.answer (.success [128, 8, 2 ^ 28, buildBlocks s.build * 2 ^ 28]))

/-- The configuration of Table 10.4: of each of the 8 regions base, length, block size, sanitize on release and shareable; then the
extents that the LD can have accepted, and the offers it can have pending. -/
def State.regionConfig (s : State) : List Nat :=
  (List.range 8).flatMap (fun d => [8 * d * s.rowSize, (if d < 7 then 8 else 7) * s.rowSize, 2 ^ 28, 1, 1]) ++ [512, 64]

/-- Get Host DC Region Configuration (Table 10.5). -/
def execGetHostDcRegionConfiguration (_h : Fin 128) (s : State) : Host.Outcome State Fault Refusal :=
  .next (s.answer (.success s.regionConfig))

/-- Set DC Region Configuration (Table 10.5). -/
def execSetDcRegionConfiguration (_h : Fin 128) (blockBytes : Nat) (sanitize : Bool) (s : State) : Host.Outcome State Fault Refusal :=
  .next (s.answer (if blockBytes = 2 ^ 28 ∧ sanitize = true then .success [] else .invalidInput))

/-- Codes of block states (Table 10.3, in its order). -/
def extCode : ExtSt → Nat
  | .offered => 1 | .granted => 2 | .releasing => 3 | .quiescing => 4 | .sanitizing => 5

/-- DPA, length, tag and state of the extents an LD holds, has accepted or is offered. -/
def State.extentList (s : State) (h : Nat) : List Nat :=
  (s.extents.filter (fun e => e.2.holders.contains h || e.2.join.contains h || e.2.offers.contains h)).flatMap
    (fun e => [e.2.first * 2 ^ 28, e.2.len * 2 ^ 28, e.2.tag, extCode e.2.st])

/-- Get DCD Extent Lists (Table 10.5). -/
def execGetDcdExtentLists (h : Fin 128) (s : State) : Host.Outcome State Fault Refusal :=
  .next (s.answer (.success (s.extentList h.val)))

/-- Initiate Dynamic Capacity Add (R254). -/
def execInitiateDynamicCapacityAdd (h : Fin 128) (a : AddReq) (s : State) : Host.Outcome State Fault Refusal := .next (s.dcAdd h.val a)

/-- Initiate Dynamic Capacity Release (R256). -/
def execInitiateDynamicCapacityRelease (h : Fin 128) (first : Nat) (forced : Bool) (s : State) : Host.Outcome State Fault Refusal :=
  .next (s.dcRelease h.val first forced)

/-- Set Region Placement (R257): course-applied, or at once before courses run (R41). -/
def execSetRegionPlacement (d : Fin 8) (near : Bool) (s : State) : Host.Outcome State Fault Refusal :=
  .next (
    if d.val = 7 ∨ (s.regionBlocks d.val).any (fun b => !s.blockFree b) then s.answer .invalidInput
    else
      let s1 : State := { s with placeFm := setIns s.placeFm d.val }
      let old := tblGet s.rwcBuf (s.reg 0x24008) 0x24008
      let new := setBits old d.val 1 (b2n near)
      (if s.tb.running then { s1 with rwcBuf := tblSet s.rwcBuf 0x24008 new }
       else (s1.setReg 0x24008 new).placementApply old).answer (.success []))

/-- Blocks in a state. -/
def State.blocksIn (s : State) (st : ExtSt) : Nat := (s.extents.filter (fun e => e.2.st == st)).foldl (fun n e => n + e.2.len) 0

/-- Get Region Placement (Table 10.5). -/
def execGetRegionPlacement (s : State) : Host.Outcome State Fault Refusal :=
  .next (
    let used := [ExtSt.offered, .granted, .releasing, .quiescing, .sanitizing].map s.blocksIn
    s.answer (.success ((s.reg 0x24008).toNat :: (buildBlocks s.build - used.foldl (· + ·) 0) :: used)))

/-- A command in an LD mailbox: taken when no Add Dynamic Capacity Response there is still to complete (log entry 97). -/
def State.mailbox (s : State) (h : Nat) (f : State → State) : State := if (s.hd h).respDue.isSome then s else f s

/-- Get Dynamic Capacity Configuration (R255). -/
def execGetDynamicCapacityConfiguration (h : Fin 128) (s : State) : Host.Outcome State Fault Refusal :=
  .next (s.mailbox h.val (fun s => s.mboxAnswer h.val (.success s.regionConfig)))

/-- Get Dynamic Capacity Extent List (R255). -/
def execGetDynamicCapacityExtentList (h : Fin 128) (s : State) : Host.Outcome State Fault Refusal :=
  .next (s.mailbox h.val (fun s => s.mboxAnswer h.val (.success ((s.extents.filter (fun e => e.2.holders.contains h.val)).flatMap
    (fun e => [e.2.first * 2 ^ 28, e.2.len * 2 ^ 28, e.2.tag])))))

/-- Add Dynamic Capacity Response (R255). -/
def execAddDynamicCapacityResponse (h : Fin 128) (firsts : List Nat) (s : State) : Host.Outcome State Fault Refusal :=
  .next (s.mailbox h.val (fun s => s.dcResponse h.val firsts))

/-- Release Dynamic Capacity (R256). -/
def execReleaseDynamicCapacity (h : Fin 128) (first : Nat) (s : State) : Host.Outcome State Fault Refusal := .next (s.mailbox h.val (fun s => s.hostRelease h.val first))

/-- SANITIZE_END (R259, R260): the last zeroing write of an extent that its keystones serve completes. -/
def execSanitizeEnd (e : Nat) (s : State) : Host.Outcome State Fault Refusal :=
  .next (
    match tblFind s.extents e with
    | some x =>
      if x.st = .sanitizing ∧ x.ended = false then
        if s.served e x then ({ s with extents := tblSet s.extents e { x with ended := true, cursor := x.hi } }.zeroExt x).specify x
        else s.keysUp.foldl (fun s k => s.homeRun k) s
      else s
    | none => s)

/-- FLR_SANITIZE_END (R465). -/
def execFlrSanitizeEnd (h : Fin 128) (s : State) : Host.Outcome State Fault Refusal :=
  .next (if (s.hd h.val).flrSanitizing ∧ (s.hd h.val).flrExts = [] then s.modHd h.val (fun d => { d with flrSanitizing := false }) else s)

/-- Step 1 for the zeroing of an FLR (R465): once the domain's pours have ended, its extents read zero. -/
def State.flrZero (s : State) (h : Nat) : State :=
  if s.pours.any (fun p => p.2.owner == h) then s
  else
    let es := (s.hd h).flrExts.filterMap (fun e => tblFind s.extents e)
    (es.foldl (fun s x => (s.purge x).zeroExt x) s).modHd h (fun d => { d with flrExts := [] })

end Sys2Proof.Machine
end

