-- ==== Sys2Proof/Machine/CohRows.lean ====
section
/-! DEFINITION. The coherence rows (chapters 11, 12, 14): requests, snoops and responses as they reach their receivers (Tables 11.5 and
12.2), CXL.mem requests of hosts (Table 11.6, R252, R309), time limits and reclaim (R307 to R313), the range engine and the drains of
crucible caches and hearths (R340 to R354). -/

namespace Sys2Proof.Machine

open Sys2Proof

/-! ## Requests at the home -/

/-- No earlier request of the same requester to the same line is still on its way: `net` keeps the order of the sequence numbers of a
requester's REQs to a home (R387). -/
def State.inSequence (s : State) (m : Msg) : Bool :=
  !s.net.contains m ||
    !(s.net.takeWhile (· != m)).any (fun e => e.aid == m.aid && e.line == m.line && isReqKind e.kind)

/-- The requests that reached their home too early, each delivered once its turn has come. -/
def State.earlyGo (s : State) : Nat → State
  | 0 => s
  | n + 1 =>
    match s.early.find? (fun m => s.net.contains m && s.inSequence m) with
    | none => s
    | some m => ((({ s with early := s.early.erase m } : State).recv m).homeReceive m).earlyGo n

/-- A request of a kind reaches its home (R272), which admits the requests of one requester to one line in sequence order (R387). -/
def State.request (s : State) (kd : MsgKind) (m : Msg) : State :=
  let m1 := { m with kind := kd }
  if s.inSequence m1 then ((s.recv m1).homeReceive m1).earlyGo s.early.length
  else if s.early.contains m1 then s
  else { s with early := s.early ++ [m1] }

/-- RDS (Table 11.7). -/
def execRds (m : Msg) (s : State) : Host.Outcome State Fault Refusal := .next (s.request .rds m)

/-- RDX (Table 11.7). -/
def execRdx (m : Msg) (s : State) : Host.Outcome State Fault Refusal := .next (s.request .rdx m)

/-- UPG (Table 11.7). -/
def execUpg (m : Msg) (s : State) : Host.Outcome State Fault Refusal := .next (s.request .upg m)

/-- RDC (Table 11.7). -/
def execRdc (m : Msg) (s : State) : Host.Outcome State Fault Refusal := .next (s.request .rdc m)

/-- WRF (Table 11.7). -/
def execWrf (m : Msg) (s : State) : Host.Outcome State Fault Refusal := .next (s.request .wrf m)

/-- WRP (Table 11.7). -/
def execWrp (m : Msg) (s : State) : Host.Outcome State Fault Refusal := .next (s.request .wrp m)

/-- WBD (Table 11.7, R303, R304). -/
def execWbd (m : Msg) (s : State) : Host.Outcome State Fault Refusal := .next (s.request .wbd m)

/-- WBK (Table 11.7, R303, R304). -/
def execWbk (m : Msg) (s : State) : Host.Outcome State Fault Refusal := .next (s.request .wbk m)

/-- EVC (Table 11.7, R303, R304). -/
def execEvc (m : Msg) (s : State) : Host.Outcome State Fault Refusal := .next (s.request .evc m)

/-- RAMMER_COMBINE (R322). -/
def execRammerCombine (m : Msg) (s : State) : Host.Outcome State Fault Refusal := .next (s.request .ram m)

/-- RETRY (R293): the requester keeps the request, which stands in the home's list, and waits. -/
def execRetry (m : Msg) (s : State) : Host.Outcome State Fault Refusal := .next (s.recv { m with kind := .retry })

/-- RGRANT (R293): the requester sends the request again unchanged, with its reserved credit. -/
def execRgrant (m : Msg) (s : State) : Host.Outcome State Fault Refusal :=
  .next (
    let s1 := s.recv { m with kind := .rgrant }
    match (s.ks m.home).resv.find? (fun r => r.2.2.aid == m.aid && r.2.2.tag == m.tag && r.2.2.line == m.line) with
    | some r => if s1.net.contains r.2.2 || (s.ks m.home).queue.contains r.2.2 then s1 else s1.send r.2.2
    | none => s1)

/-! ## Snoops at a crucible -/

/-- A snoop reaches the crucible it addresses, which answers it unless it is FAILED (R93); while its cache is being invalidated it holds
no line (R339). A snoop to a host goes on as a
Back-Invalidate snoop, which the host's own rows answer. -/
def State.snoopRow (s : State) (kd : MsgKind) (m : Msg) : State :=
  let m1 := { m with kind := kd }
  let s1 := s.recv m1
  if !(isCruAid m.aid && hasCru s.build m.aid) || (s.cru m.aid).st == .failed then s1
  else if (s.cru m.aid).cst = .invalidating then s1.snpAck m1 .i false false
  else if (s.cru m.aid).st == .off then s1
  else (s1.snoopIn m1).cruGo m.aid

/-- SNPFWDS (Table 11.5, R278). -/
def execSnpfwds (m : Msg) (s : State) : Host.Outcome State Fault Refusal := .next (s.snoopRow .snpFwdS m)

/-- SNPFWDX (Table 11.5). -/
def execSnpfwdx (m : Msg) (s : State) : Host.Outcome State Fault Refusal := .next (s.snoopRow .snpFwdX m)

/-- SNPCUR (Table 11.5). -/
def execSnpcur (m : Msg) (s : State) : Host.Outcome State Fault Refusal := .next (s.snoopRow .snpCur m)

/-- SNPINV (Table 11.5). -/
def execSnpinv (m : Msg) (s : State) : Host.Outcome State Fault Refusal := .next (s.snoopRow .snpInv m)

/-- SNPGETI (Table 11.5). -/
def execSnpgeti (m : Msg) (s : State) : Host.Outcome State Fault Refusal := .next (s.snoopRow .snpGetI m)

/-- SNPINVG (Table 11.5, R279). -/
def execSnpinvg (m : Msg) (s : State) : Host.Outcome State Fault Refusal := .next (s.snoopRow .snpInvG m)

/-- TAGQ (R315): answered from the tags and the write-back buffer in every state except OFF. -/
def execTagq (m : Msg) (s : State) : Host.Outcome State Fault Refusal :=
  .next (
    let s1 := s.recv { m with kind := .tagQ }
    if isCruAid m.aid && hasCru s.build m.aid && (s.cru m.aid).st != .off then
      s1.send { kind := .tagR, aid := m.aid, home := m.home, line := m.line, tag := m.tag, ack := s.tagAnswer m }
    else s1)

/-! ## Answers at the home -/

/-- SNPACK (R276, R303). -/
def execSnpack (m : Msg) (s : State) : Host.Outcome State Fault Refusal :=
  .next (let m1 := { m with kind := .snpAck }; (s.recv m1).homeAck m1)

/-- SNPDATA (R281). -/
def execSnpdata (m : Msg) (s : State) : Host.Outcome State Fault Refusal :=
  .next (let m1 := { m with kind := .snpData }; (s.recv m1).homeSnpData m1)

/-- The end of crucible resets that a sweep may have ended (R95). -/
def State.sweepEnded (s : State) : State :=
  ((buildCrus s.build).filter (fun n => (s.cru n).st == .resetting)).foldl (fun s n => s.cruAdvance n) s

/-- TAGR (R313). -/
def execTagr (m : Msg) (s : State) : Host.Outcome State Fault Refusal :=
  .next (
    let s1 := s.recv { m with kind := .tagR }
    match s.homeOf m.line with
    | some (k, sl) => s1.reclaimAnswer k sl m.aid m.ack
    | none => s1)

/-! ## Responses at the requester -/

/-- What goes on at a crucible after a message: its engines, and lines that no operation waits for any more are let go. -/
def State.cruAfter (s : State) (n : Nat) : State :=
  let s1 := if (s.cru n).snps.isEmpty then s.cruGo n else (s.snoopsGo n).cruGo n
  if (s1.cru n).xq.isEmpty then
    (s1.modCru n (fun c => { c with miss := c.miss.filter (fun e => !(e.2.noInst && e.2.got.isSome)) })).cruAdvance n
  else s1.cruAdvance n

/-- CMP (R301, R302): it ends a write, an eviction or a Ram of its requester. -/
def execCmp (m : Msg) (s : State) : Host.Outcome State Fault Refusal :=
  .next (
    let s1 := s.recv { m with kind := .cmp }
    if isCruAid m.aid then
      match s.outst.find? (fun a => a.aid == m.aid && a.tag == m.tag) with
      | some a =>
        let s2 := s1.complete m.aid m.tag
        (if a.wb then s2.cruWbCmp m.aid m.line
         else s2.modCru m.aid (fun c => if m.resv then { c with condGot := some m.ok } else c)).cruAfter m.aid
      | none => s1.cruAfter m.aid
    else if isCoreAid m.aid then s1.coreCmp (m.aid - 0xC0) m
    else if isLadleAid m.aid then s1.ladleCmp (m.aid - 0x80) m
    else s1.complete m.aid m.tag)

/-- CMPX (R305): an Upg is granted. -/
def execCmpx (m : Msg) (s : State) : Host.Outcome State Fault Refusal :=
  .next (
    let m1 := { m with kind := .cmpX }
    let s1 := s.recv m1
    if isCruAid m.aid then (s1.cruData m.aid m1).cruAfter m.aid else s1.complete m.aid m.tag)

/-- A data message reaches its requester (R282, R305). -/
def State.dataRow (s : State) (kd : MsgKind) (m : Msg) : State :=
  let m1 := { m with kind := kd }
  let s1 := s.recv m1
  if isCruAid m.aid then (s1.cruData m.aid m1).cruAfter m.aid
  else if isCoreAid m.aid then s1.coreData (m.aid - 0xC0) m1
  else if isLadleAid m.aid then s1.ladleData (m.aid - 0x80) m1
  else if m.aid = aidSet then (s1.complete m.aid m.tag).ownData m.tag (if m.poison then none else some m.data)
  else s1.complete m.aid m.tag

/-- DATAX (Table 11.5). -/
def execDatax (m : Msg) (s : State) : Host.Outcome State Fault Refusal := .next (s.dataRow .dataX m)

/-- DATAD (Table 11.5). -/
def execDatad (m : Msg) (s : State) : Host.Outcome State Fault Refusal := .next (s.dataRow .dataD m)

/-- DATAS (Table 11.5). -/
def execDatas (m : Msg) (s : State) : Host.Outcome State Fault Refusal := .next (s.dataRow .dataS m)

/-- DATAL (Table 11.5, R278). -/
def execDatal (m : Msg) (s : State) : Host.Outcome State Fault Refusal := .next (s.dataRow .dataL m)

/-- DATAC (Table 11.5). -/
def execDatac (m : Msg) (s : State) : Host.Outcome State Fault Refusal := .next (s.dataRow .dataC m)

/-! ## CXL.mem requests of a host (R283, Table 11.6) -/

/-- The line a host request names. -/
def hostLine (m : HostReq) : Nat := m.dpa.toNat / 64

/-- The request at the home. -/
def hostMsg (m : HostReq) (kd : MsgKind) (k : Nat) : Msg :=
  { kind := kd, aid := aidHd m.hd.val, home := k, line := hostLine m, tag := m.tag, data := m.data, poison := m.poison, mask := m.mask }

/-- Whether an open transaction of a line waits for a host's answer (R306). -/
def State.hostOwes (s : State) (h line : Nat) : Bool :=
  match s.homeOf line with
  | none => false
  | some (k, sl) => match (s.ks k).txnOn sl with | some t => t.wait.contains (aidHd h) || t.dataWait.contains (aidHd h) | none => false

/-- Whether a host owns a line, or an open transaction of the line waits for its answer (Table 11.6, R306). -/
def State.hostOwns (s : State) (h line : Nat) : Bool :=
  s.hostOwes h line || (match s.homeOf line with | none => false | some (k, sl) => (s.ks k).homeSt sl == .he (aidHd h))

/-- A CXL.mem request of a host domain (R252, R283, R286, R309, R316, R469, R555): it is sent to its home where the gate holds a credit
there, and waits at the host otherwise. The dirty data of a snoop's answer is no access of its own (R256, R306). -/
def State.hostMem (s : State) (m : HostReq) (kd : MsgKind) : State :=
  let h := m.hd.val
  if !(s.gate (h / 16)).inL0 then s
  else if (s.hd h).biDead then s.gateReply (hostMsg m kd 0)
  else if !s.attached.contains h || s.rst.withheld || s.inReset || (s.gate (h / 16)).ideBad.contains (h % 16) || (s.gate (h / 16)).ideBad.contains 16 then s
  else
    match s.homeUp (hostLine m) with
    | none => if s.unheld (hostMsg m kd 0) then s.ungranted (hostMsg m kd 0) else s.gateReply (hostMsg m kd 0)
    | some k =>
      let owed : Bool := (kd == .wbd || kd == .wbk) && s.hostOwes h (hostLine m)
      if owed || s.hasCredit (aidHd h) k then s.hostIssue (hostMsg m kd k) else s

/-- The link of a host's gate runs with 68-byte flits, on which a host keeps no shared copy (R449). -/
def State.flit68 (s : State) (h : Fin 128) : Bool := (s.gate (h.val / 16)).info.flit == 1

/-- The DPA bytes of a decoder: its part of the host range (R250). -/
def Hdm.dpaLen (d : Hdm) : Nat := d.size / d.ways

/-- The DPA of a host physical address in a committed decoder (R250). Of `ways` devices each takes every `ways`-th piece of `gran` bytes
(log entry 33). -/
def Hdm.map (d : Hdm) (a : Nat) : Option Nat :=
  if d.committed && d.base ≤ a && a < d.base + d.size then some (d.dpa + (a - d.base) / (d.gran * d.ways) * d.gran + (a - d.base) % d.gran)
  else none

/-- The message with the DPA it names; none where no decoder of the LD covers its host physical address (log entry 33). -/
def State.hostAddr (s : State) (m : HostReq) : Option HostReq :=
  match m.hpa with
  | none => some m
  | some a => ((s.hd m.hd.val).decoders.findSome? (fun e => e.2.map a.toNat)).map (fun d => { m with dpa := BitVec.ofNat 64 d, hpa := none })

/-- What a message of a host does at the line it names. -/
def State.hostRow (s : State) (m : HostReq) (f : HostReq → State) : State :=
  match s.hostAddr m with
  | some m1 => f m1
  | none => s

/-- MEMRD (Table 11.6). -/
def execMemrd (m : HostReq) (s : State) : Host.Outcome State Fault Refusal :=
  .next (s.hostRow m (fun m => s.hostMem m (if s.flit68 m.hd then .rdc else match m.mv with | .s => .rds | .a => .rdx | .i => .rdc)))

/-- MEMRDDATA (Table 11.6). -/
def execMemrddata (m : HostReq) (s : State) : Host.Outcome State Fault Refusal := .next (s.hostRow m (fun m => s.hostMem m .rdc))

/-- MEMINV (Table 11.6). -/
def execMeminv (m : HostReq) (s : State) : Host.Outcome State Fault Refusal := .next (s.hostRow m (fun m => s.hostMem m .upg))

/-- MEMWR (Table 11.6, R306). -/
def execMemwr (m : HostReq) (s : State) : Host.Outcome State Fault Refusal :=
  .next (s.hostRow m (fun m => s.hostMem m (
    if s.flit68 m.hd then .wrf
    else if m.mv = .a then .wbk
    else if s.hostOwns m.hd.val (hostLine m) then .wbd else .wrf)))

/-- MEMWRPTL (Table 11.6). -/
def execMemwrptl (m : HostReq) (s : State) : Host.Outcome State Fault Refusal := .next (s.hostRow m (fun m => s.hostMem m .wrp))

/-- MEMCLNEVCT (Table 11.6). -/
def execMemclnevct (m : HostReq) (s : State) : Host.Outcome State Fault Refusal := .next (s.hostRow m (fun m => s.hostMem m .evc))

/-- The BIConflictAck that a gate has sent a host for a line has served, once the host answers the snoop (R306). -/
def State.conflictDone (s : State) (a line : Nat) : State :=
  { s with net := s.net.filter (fun m => !(m.kind == .biConflictAck && m.aid == a && m.line == line)) }

/-- The answer of a host to a Back-Invalidate snoop (R283); none comes while the head's link is not in L0 (R461). -/
def State.biAnswer (s : State) (m : HostReq) (a : AckState) : State :=
  if !(s.gate (m.hd.val / 16)).inL0 then s
  else (s.conflictDone (aidHd m.hd.val) (hostLine m)).homeAck { kind := .snpAck, aid := aidHd m.hd.val, home := 0, line := hostLine m, tag := m.tag, ack := a, dat := m.dirty }

/-- BIRSPI (R283). -/
def execBirspi (m : HostReq) (s : State) : Host.Outcome State Fault Refusal := .next (s.hostRow m (fun m => s.biAnswer m .i))

/-- BIRSPS (R283). -/
def execBirsps (m : HostReq) (s : State) : Host.Outcome State Fault Refusal := .next (s.hostRow m (fun m => s.biAnswer m .s))

/-- BIRSPE (R283). -/
def execBirspe (m : HostReq) (s : State) : Host.Outcome State Fault Refusal := .next (s.hostRow m (fun m => s.biAnswer m .x))

/-- BICONFLICT (R306): the gate answers BIConflictAck while a snoop of the line waits for the host; the host's request waits behind the
open transaction in the line's queue. -/
def execBiconflict (m : HostReq) (s : State) : Host.Outcome State Fault Refusal :=
  .next (s.hostRow m (fun m =>
    if (s.gate (m.hd.val / 16)).inL0 && s.hostOwes m.hd.val (hostLine m) then s.send (hostMsg m .biConflictAck 0) else s))

/-- H2D_SNOOP (R452): the gate answers RspIHitI, and no state of the set changes. -/
def execH2dSnoop (_g : Fin 8) (_line : Nat) (s : State) : Host.Outcome State Fault Refusal := .next s

/-! ## Time limits and reclaim -/

/-- Whether a transaction at keystone k waits for an agent's answer on a line. -/
def State.awaits (s : State) (k aid line : Nat) : Bool :=
  (s.ks k).txns.any (fun t =>
    (t.wait.contains aid && t.phase != .tagq && (t.line == line || (t.phase == .rinv && t.line / 64 == line / 64))) ||
    (t.dataWait.contains aid && isHostAid aid && t.line == line) || (t.blocks.any (fun b => b.1 == aid) && t.line / 64 == line / 64))

/-- SNOOP_TIMEOUT (R307): the fault, and the failure of a crucible that has not failed before. -/
def execSnoopTimeout (k : Fin 24) (n : Fin 72) (line : Nat) (s : State) : Host.Outcome State Fault Refusal :=
  .next (
    if !s.awaits k.val n.val line then s
    else if (s.cru n.val).st = .failed then s.raiseAt 7 (unitCru n.val)
    else s.cruFailed n.val .snoopTimeout)

/-- BI_TIMEOUT (R308): the timer pauses while the head's link retrains. -/
def execBiTimeout (k : Fin 24) (h : Fin 128) (line : Nat) (s : State) : Host.Outcome State Fault Refusal :=
  .next (
    if s.awaits k.val (aidHd h.val) line && !(s.gate (h.val / 16)).retraining && (s.gate (h.val / 16)).up then
      ((s.raise { src := 15, unit := unitHd h.val }).modHd h.val (fun d => { d with biDead := true })).declareDead (aidHd h.val)
    else s)

/-- TAGR_TIMEOUT (R313): no TagR came in time. -/
def execTagrTimeout (k : Fin 24) (n : Fin 72) (line : Nat) (s : State) : Host.Outcome State Fault Refusal :=
  .next (
    match s.homeOf line with
    | some (k', sl) => if k' = k.val then s.reclaimAnswer k.val sl n.val .fail else s
    | none => s)

/-- Whether an entry of the keystone still names an agent of its sweep as owner or relay. -/
def Ks.sweepLeft (x : Ks) : Bool :=
  x.dir.any (fun e => match e.2.st with | .he o => x.sweep.contains o | .hs (some a) _ => x.sweep.contains a | .hs none _ => false) ||
  x.txns.any (fun t => t.kind == .reclaim)

/-! ## The range engine (R340 to R342) -/

/-- A command written to CR_CM_CTRL (R340, R342). -/
def State.rangeCmd (s : State) (r : Requester) (n op : Nat) : State :=
  if !s.isFw r || !hasCru s.build n || (s.cru n).st == .retired then s
  else if (s.cru n).range.isSome || op < 1 || 4 < op then s.bump (aCr n 0x401C) 0 16 1
  else
    let by_ : Option Nat := match r with | .core e c => some (aidCore (coreNo e.val c.val)) | _ => none
    let s1 := s.rangeStart n op .command by_
    if (s1.cru n).rangeDone && op < 3 && s1.reg64 (aCr n 0x4010) < s1.reg64 (aCr n 0x4008) then s1.rangeEnd n else s1

/-- CLEAN (Table 14.4). -/
def execClean (r : Requester) (n : Fin 72) (s : State) : Host.Outcome State Fault Refusal := .next (s.rangeCmd r n.val 1)

/-- FLUSH (Table 14.4). -/
def execFlush (r : Requester) (n : Fin 72) (s : State) : Host.Outcome State Fault Refusal := .next (s.rangeCmd r n.val 2)

/-- CLEAN_ALL (Table 14.4). -/
def execCleanAll (r : Requester) (n : Fin 72) (s : State) : Host.Outcome State Fault Refusal := .next (s.rangeCmd r n.val 3)

/-- FLUSH_ALL (Table 14.4). -/
def execFlushAll (r : Requester) (n : Fin 72) (s : State) : Host.Outcome State Fault Refusal := .next (s.rangeCmd r n.val 4)

/-- The range engine runs the FLUSH_ALL of a drain, during which BUSY stays 1 (R346); CACHE_DRAIN_END ends it. -/
def Cru.draining (c : Cru) : Bool := c.cst == .draining && (c.range.map (·.why)) == some .drain

/-- The end of the FLUSH_ALL of a charge is kept for its CHARGE_DONE (R228). -/
def State.chargeFlushed (s : State) (n : Nat) : State :=
  if ((s.cru n).range.map (·.why)) = some .charge then
    match (s.cru n).charge with
    | some (p, slot) =>
      (match (s.charge p slot).map (fun (x : Charge) => x.run) with
      | some (.flushing exit inc _) => s.setRun p slot (.flushing exit inc true)
      | _ => s)
    | none => s
  else s

/-- RANGE_COMMAND_END (R341): every write-back and EvC of the command has its Cmp. -/
def execRangeCommandEnd (n : Fin 72) (s : State) : Host.Outcome State Fault Refusal :=
  .next (
    let s1 := s.rangeGo n.val
    if (s1.cru n.val).rangeDone && (s1.cru n.val).cst != .invalidating && !(s1.cru n.val).draining then
      ((s1.chargeFlushed n.val).rangeEnd n.val).cruAdvance n.val
    else s1)

/-! ## Caches and hearths that drain or invalidate (R339, R345 to R354) -/

/-- An applied CR_CACHE_CTRL.ENABLE (Table 14.5). -/
def State.cacheApply (s : State) (n : Nat) (en : Bool) : State :=
  match (s.cru n).cst with
  | .enabled => if en then s else (s.modCru n (fun c => { c with cst := .draining, reenable := false })).flushFor n .drain
  | .draining => s.modCru n (fun c => { c with reenable := en })
  | .bypass => if en then (s.modCru n (fun c => { c with cst := .enabled })).cruGo n else s
  | .invalidating => s

/-- An applied KS_HEARTH_CTRL.ENABLE (R353). -/
def State.hearthApply (s : State) (k : Nat) (en : Bool) : State :=
  match (s.ks k).hst with
  | .enabled => if en then s else s.modKs k (fun x => { x with hst := .draining, hearthReenable := false })
  | .draining => s.modKs k (fun x => { x with hearthReenable := en })
  | .bypass => if en then s.modKs k (fun x => { x with hst := .enabled }) else s
  | .invalidating => s

/-- CACHE_DRAIN_END (Table 14.5): the last Cmp of the drain's FLUSH_ALL has come. -/
def execCacheDrainEnd (n : Fin 72) (s : State) : Host.Outcome State Fault Refusal :=
  .next (
    let c := s.cru n.val
    if c.cst ≠ .draining then s
    else
      let mine := (c.range.map (·.why)) = some .drain
      if c.cache.isEmpty ∧ c.wb.isEmpty ∧ (c.range.isNone ∨ (mine ∧ c.rangeDone = true)) then
        ((if mine then s.rangeEnd n.val else s).modCru n.val (fun c =>
          { c with cst := if c.reenable then .enabled else .bypass, reenable := false })).cruGo n.val
      else if mine ∧ c.rangeDone = true then (s.rangeEnd n.val).flushFor n.val .drain
      else if c.range.isNone ∧ !c.cache.isEmpty then s.flushFor n.val .drain
      else s)

/-- CACHE_INVALIDATE_END (R339). -/
def execCacheInvalidateEnd (n : Fin 72) (s : State) : Host.Outcome State Fault Refusal :=
  .next (if (s.cru n.val).cst = .invalidating then (s.cacheInvEnd n.val).cruGo n.val else s)

/-- The walk of a hearth drain (R353): clean lines are invalid, and dirty ones go to the eviction buffer as far as it has room. -/
def Ks.hearthWalk (x : Ks) : Ks :=
  let d := x.hearth.filter (fun e => e.2.dirty)
  let room := 64 - x.evq.length
  { x with evq := x.evq ++ (d.take room).map (fun e => (e.1, e.2.data, e.2.poison)), hearth := d.drop room }

/-- HEARTH_DRAIN_END (R353): the walk has met every set and every way is invalid; lines for which the eviction buffer has no room yet
keep the hearth in DRAINING. -/
def execHearthDrainEnd (k : Fin 24) (s : State) : Host.Outcome State Fault Refusal :=
  .next (
    if (s.ks k.val).hst = .draining then
      s.modKs k.val (fun x0 =>
        let x := x0.hearthWalk
        if x.hearth.isEmpty then { x with hst := if x.hearthReenable then .enabled else .bypass, hearthReenable := false } else x)
    else s)

/-- HEARTH_INVALIDATE_END (R354, step 1 of Table 25.2): the keystone may admit requests. -/
def execHearthInvalidateEnd (k : Fin 24) (s : State) : Host.Outcome State Fault Refusal :=
  .next (
    if (s.ks k.val).hst = .invalidating ∧ 1 ∈ s.rst.steps then
      (s.modKs k.val (fun x =>
        { x with hearth := [], evq := [], hst := if s.fld (aKs k.val 0x8000) 0 1 = 1 then .enabled else .bypass })).homeRun k.val
    else s)

end Sys2Proof.Machine
end

