-- ==== Sys2Proof/Machine/MemPort.lean ====
section
/-! DEFINITION. The memory port (chapter 24): answers of the stack's controller, the address log, scrub, the check-bit test, and the
failure of the port. -/

namespace Sys2Proof.Machine

open Sys2Proof

/-- Codes of Table 24.2. -/
def portCode : PortStatus → Nat
  | .ok => 0 | .ce => 1 | .ceErasure => 2 | .ue => 3

/-- The port is failed (R537). -/
def State.portFailed (s : State) (k : Nat) : Bool := s.fld (aMp k 4) 31 1 == 1

/-- An event enters the lowest empty entry of the address log, or is counted as lost (R541). -/
def State.mpLog (s : State) (k sl die : Nat) (st : PortStatus) : State :=
  let n := s.fld (aMp k 0x480) 0 5
  if 16 ≤ n then s.bump (aMp k 0x480) 5 16 1
  else
    let e := 2 ^ 63 + portCode st * 2 ^ 61 + die % 16 * 2 ^ 57 + s.course % 2 ^ 21 * 2 ^ 36 + sl % 2 ^ 30 * 64
    ((s.setReg64 (aMp k (0x400 + 8 * n)) e).setFld (aMp k 0x480) 0 5 (n + 1)).note (.ks k)

/-- What an error status of a command at the port does (R535, R540, R541). -/
def State.mpStatus (s : State) (k sl die : Nat) (st : PortStatus) : State :=
  match st with
  | .ok => s
  | .ue => ((s.bump64 (aMp k 0x18) 1).mpLog k sl die st).raiseAt 18 (unitKs k)
  | _ => (((s.bump64 (aMp k 0x10) 1).bump32 (aMp k (0x200 + 4 * (die % 16))) 1).mpLog k sl die st).raiseAt 17 (unitKs k)

/-- Whether policy 1 of INSTALL leaves out the line that a transaction reads (Table 14.6): a read that grants X or D, or a read of a
merge or a Ram, which grants nothing. -/
def State.grantsXD (s : State) (k : Nat) (t : Txn) : Bool :=
  match t.req.kind with
  | .rds =>
    (match (s.ks k).homeSt t.sla with
    | .hi => !t.region && !isHostAid t.req.aid
    | .he o => o == t.req.aid && !isHostAid o
    | _ => false)
  | .rdc => false
  | _ => true

/-- RD (R282, R349, R351, R535, R540): the data of an open read, its poison bit and its status. A read that ends UE delivers data with
the poison bit set; what the data then is, is not stated: a free value (log entry 1). -/
def execRd (k : Fin 24) (sla : BitVec 30) (st : PortStatus) (die : BitVec 4) (s : State) : Host.Outcome State Fault Refusal :=
  .next (
    let sl := sla.toNat
    if !(s.ks k.val).rdq.contains sl || s.portFailed k.val then s
    else
      let (v, s0) : (LineData × Bool) × State :=
        if st = .ue then (let (d, s1) := s.takeLine; ((d, true), s1)) else (s.stackLine k.val sl, s)
      let s1 := (s0.modKs k.val (fun x => { x with rdq := x.rdq.erase sl })).mpStatus k.val sl die.toNat st
      match (s1.ks k.val).txnOn sl with
      | some t =>
        if t.memPend then
          let s2 := if t.kind = .client then s1.hearthFill k.val sl v.1 v.2 (s1.grantsXD k.val t) else s1
          (s2.modKs k.val (fun x => x.setTxn sl (fun t => { t with mem := some v, memPend := false }))).homeRun k.val
        else s1
      | none => s1)

/-- WR (R534): a write of the home is done, or a line of the eviction buffer has been written (R350). -/
def execWr (k : Fin 24) (sla : BitVec 30) (s : State) : Host.Outcome State Fault Refusal :=
  .next (
    let sl := sla.toNat
    let x := s.ks k.val
    if s.portFailed k.val then s
    else if x.wrq.contains sl then s.modKs k.val (fun x => { x with wrq := x.wrq.erase sl })
    else
      match x.evq.find? (fun e => e.1 == sl) with
      | some (_, d, p) => (s.stackWrite k.val sl d p).modKs k.val (fun x => { x with evq := x.evq.filter (fun e => e.1 != sl) })
      | none => s)

/-! ## Scrub (R542) -/

def State.scrubBusy (s : State) (k : Nat) : Bool := s.fld (aMp k 0x514) 31 1 == 1
def State.scrubCursor (s : State) (k : Nat) : Nat := s.reg64 (aMp k 0x520) / 64

/-- A pass begins at BASE. -/
def State.scrubBegin (s : State) (k : Nat) : State :=
  ((s.setReg64 (aMp k 0x520) (s.reg64 (aMp k 0x500))).setFld (aMp k 0x514) 31 1 1).modKs k (fun x => { x with scrubCe := 0, scrubUe := 0 })

/-- The cursor has passed LIMIT: the totals and the course of the pass, and the next pass or the end. -/
def State.scrubPass (s : State) (k : Nat) : State :=
  let x := s.ks k
  let s1 := (s.setReg64 (aMp k 0x528) (x.scrubCe % 2 ^ 32 * 2 ^ 32 + x.scrubUe % 2 ^ 32)).setReg64 (aMp k 0x530) (s.course % 2 ^ 48)
  let s2 := s1.setFld (aMp k 0x514) 0 16 (s1.fld (aMp k 0x514) 0 16 + 1)
  (if s2.fld (aMp k 0x510) 24 1 = 1 then s2.scrubBegin k else s2.setFld (aMp k 0x514) 31 1 0).note (.ks k)

/-- SCRUB: the scrub of the line at the cursor, which waits while a transaction is open on its line (R273) and for an entry of the
internal share (R290, R542). -/
def execScrub (k : Fin 24) (st : PortStatus) (die : BitVec 4) (s : State) : Host.Outcome State Fault Refusal :=
  .next (
      let sl := s.scrubCursor k
    if !s.scrubBusy k || (s.ks k).scrubLeft = 0 || (s.ks k).busy sl || s.portFailed k || !s.internalRoom k then s
    else if s.reg64 (aMp k 0x508) / 64 < sl then s.scrubPass k
    else
      let s1 := (s.mpStatus k sl die.toNat st).modKs k (fun x =>
        { x with scrubLeft := x.scrubLeft - 1, scrubCe := x.scrubCe + b2n (st == .ce || st == .ceErasure),
                 scrubUe := x.scrubUe + b2n (st == .ue) })
      let s2 := s1.setReg64 (aMp k 0x520) ((sl + 1) % 2 ^ 30 * 64)
      if s.reg64 (aMp k 0x508) / 64 ≤ sl then s2.scrubPass k else s2)

/-- SCRUB_START: ignored while a pass runs. -/
def State.scrubStart (s : State) (r : Requester) (k : Nat) : State :=
  if s.isFw r && s.keyUp k && !s.scrubBusy k then s.scrubBegin k else s

/-- SCRUB_START. -/
def execScrubStart (r : Requester) (k : Fin 24) (s : State) : Host.Outcome State Fault Refusal := .next (s.scrubStart r k.val)

/-- SCRUB_STOP: the pass ends, and MP_SCRUB_SUM keeps its value. -/
def State.scrubStop (s : State) (r : Requester) (k : Nat) : State :=
  if s.isFw r && s.keyUp k then s.setFld (aMp k 0x514) 31 1 0 else s

/-- SCRUB_STOP. -/
def execScrubStop (r : Requester) (k : Fin 24) (s : State) : Host.Outcome State Fault Refusal := .next (s.scrubStop r k.val)

/-- LOG_CLEAR (R541). -/
def State.logClear (s : State) (r : Requester) (k : Nat) : State :=
  if s.isFw r && s.keyUp k then
    (((List.range 16).foldl (fun s j => s.setReg64 (aMp k (0x400 + 8 * j)) 0) s).setReg (aMp k 0x480) 0).note (.ks k)
  else s

/-- LOG_CLEAR (R541). -/
def execLogClear (r : Requester) (k : Fin 24) (s : State) : Host.Outcome State Fault Refusal := .next (s.logClear r k.val)

/-! ## The check-bit test (R543) -/

/-- The test line of MP_TEST_ADDR may be tested: PHASE is TEST, its block is FREE, and at most 16 lines are outstanding. -/
def State.testOk (s : State) (k : Nat) : Bool :=
  let sl := s.reg64 (aMp k 0x608) / 64
  let b := blockOf (s.poolUnmap k (64 * sl))
  s.fld 0x2C000 8 2 == 2 && s.carvable b && (s.extOf b).isNone &&
  ((s.ks k).testLines.contains sl || (s.ks k).testLines.length < 16)

/-- The 64-byte value of MP_TEST_DATA, and the 128 bits of MP_TEST_CHECK. -/
def State.testData (s : State) (k : Nat) : LineData :=
  BitVec.ofNat 512 ((List.range 16).foldl (fun v i => v + (s.reg (aMp k (0x640 + 4 * i))).toNat * 2 ^ (32 * i)) 0)
def State.testCheck (s : State) (k : Nat) : BitVec 128 :=
  BitVec.ofNat 128 ((List.range 4).foldl (fun v i => v + (s.reg (aMp k (0x610 + 4 * i))).toNat * 2 ^ (32 * i)) 0)

/-- MP_TEST_CTRL.RESULT := REFUSED. -/
def State.testRefused (s : State) (k : Nat) : State := s.setFld (aMp k 0x600) 8 2 2

/-- WR_RAW (R543). -/
def State.wrRaw (s : State) (r : Requester) (k : Nat) : State :=
  if !s.isFw r || !s.keyUp k then s
  else if !s.testOk k || s.portFailed k then s.testRefused k
  else
    let sl := s.reg64 (aMp k 0x608) / 64
    let s1 := (s.stackWrite k sl (s.testData k) false).modKs k (fun x =>
      { x with testLines := setIns x.testLines sl, rawCheck := tblSet x.rawCheck sl (s.testCheck k) })
    (s1.setFld (aMp k 0x600) 8 2 0).setFld (aMp k 0x600) 0 4 (min 15 (s1.ks k).testLines.length)

/-- WR_RAW (R543). -/
def execWrRaw (r : Requester) (k : Fin 24) (s : State) : Host.Outcome State Fault Refusal := .next (s.wrRaw r k.val)

/-- RD_RAW (R543): data, raw check field and status as stored. A line that no WR_RAW wrote has the check bits of the controller, which
the spec does not give: free values (log entry 1). -/
def State.rdRaw (s : State) (r : Requester) (k : Nat) (st : PortStatus) : State :=
  if !s.isFw r || !s.keyUp k then s
  else if !s.testOk k || s.portFailed k then s.testRefused k
  else
    let sl := s.reg64 (aMp k 0x608) / 64
    let (w0, s1) := s.takeWord
    let (w1, s2) := s1.takeWord
    let chk : BitVec 128 := match tblFind (s.ks k).rawCheck sl with | some c => c | none => w1 ++ w0
    let d := (s.stackLine k sl).1
    let s3 := (List.range 16).foldl (fun s i => s.setReg (aMp k (0x640 + 4 * i)) (BitVec.ofNat 32 (bitsOf d (32 * i) 32))) s2
    let s4 := (List.range 4).foldl (fun s i => s.setReg (aMp k (0x610 + 4 * i)) (BitVec.ofNat 32 (bitsOf chk (32 * i) 32))) s3
    (s4.setFld (aMp k 0x600) 8 2 0).setFld (aMp k 0x600) 4 2 (portCode st)

/-- RD_RAW (R543). -/
def execRdRaw (r : Requester) (k : Fin 24) (st : PortStatus) (s : State) : Host.Outcome State Fault Refusal := .next (s.rdRaw r k.val st)

/-- PHASE leaves TEST: every outstanding test line is written with zeros (R543). -/
def State.testEnd (s : State) : State :=
  s.kss.foldl (fun s e =>
    if e.2.testLines.isEmpty then s
    else
      (((e.2.testLines.foldl (fun s sl => s.stackWrite e.1 sl 0 false) s).modKs e.1 (fun x => { x with testLines := [], rawCheck := [] })).setFld
        (aMp e.1 0x600) 0 4 0)) s

/-! ## The port as a whole (R537, R539) -/

/-- KS_OUT: a keystone in service is to leave it at step 1 of the next boundary (R514). -/
def State.keyOut (s : State) (k : Nat) : State :=
  if hasKs s.build k && s.keyUp k && !s.ksOut.contains k then
    let s1 := s.raiseAt 19 (unitKs k)
    { s1 with ksOut := setIns s1.ksOut k }
  else s

/-- The port fails: MP_STATUS.FAILED and MP_UE with PARAM 0, and the keystone leaves service under R514. -/
def State.portFail (s : State) (k : Nat) : State :=
  if s.portFailed k || !hasKs s.build k then s
  else
    (((s.setFld (aMp k 4) 31 1 1).note (.ks k)).raiseAt 18 (unitKs k)).keyOut k

/-- MP_TIMEOUT (R537): a request open at the controller has had no answer in time. -/
def execMpTimeout (k : Fin 24) (s : State) : Host.Outcome State Fault Refusal :=
  .next (if !(s.ks k.val).rdq.isEmpty || !(s.ks k.val).wrq.isEmpty || !(s.ks k.val).evq.isEmpty then s.portFail k.val else s)

/-- CHANNEL_RETRAIN_FAILED (R537). -/
def execChannelRetrainFailed (k : Fin 24) (_j : Fin 16) (s : State) : Host.Outcome State Fault Refusal := .next (s.portFail k.val)

/-- REG (R534, R537, R539, Table 24.3): the answer of a controller register. -/
def execReg (k : Fin 24) (regno : PortReg) (v : Word) (s : State) : Host.Outcome State Fault Refusal :=
  .next (
    if !hasKs s.build k.val then s
    else
      match regno with
      | .geom => s.setReg (aMp k.val 8) (v.setWidth 32 &&& 0xFFFF0000)
      | .pos i => s.setFld (aMp k.val (0x104 + 8 * i.val)) 24 6 v.toNat
      | .refreshForced => s.setReg64 (aMp k.val 0x20) v.toNat
      | .fatal => s.portFail k.val
      | .eraseDone => s)

end Sys2Proof.Machine
end

