-- ==== Sys2Proof/Machine/Sprue.lean ====
section
/-! DEFINITION. The sprue (chapter 16): routing of messages (R384 to R386, R394), the escape channel (R383), flits and replay (R392),
training, retraining and failure of links and routers (R388 to R395). -/

namespace Sys2Proof.Machine

open Sys2Proof

/-! ## Links -/

/-- SP_CTRL: MIN_MODULES, ESC_WAIT in 4 ns, REPLAY_LIMIT (Table 16.6). -/
def State.minModules (s : State) : Nat := min 6 (max 1 (s.fld (aSp 0) 16 3))
def State.replayLimit (s : State) : Nat := s.fld (aSp 0) 0 8

/-- A count of a router (Table 16.7), at port p. -/
def aRtrP (x o : Nat) (p : SPort) : Nat := aRtr x (o + 4 * portNo p)

/-! ## Messages -/

/-- The slots of a message (R379): nine for a DAT message, one for any other. -/
def msgSlots (m : NetMsg) : Nat := if m.home = some .dat then 9 else 1

/-- The buffer of a channel (Table 16.2). -/
def vnSlots : Vn → Nat
  | .dat => 128 | .esc => 36 | _ => 64

/-- Channels in the order their turns are counted. -/
def vnNo : Vn → Nat
  | .req => 0 | .snp => 1 | .rsp => 2 | .dat => 3 | .esc => 4

/-- Inputs in the order their turns are counted. -/
def rportNo : RPort → Nat
  | .nb p => portNo p | .loc => 4

/-- Where the freed slots of a channel at an input stand. -/
def freedKey (x : Nat) (p : SPort) (v : Vn) : Nat := 20 * x + 5 * portNo p + vnNo v

/-- The slots of a channel at an input for which its sender holds no credit: in use, promised to messages on the link, or freed with the
credit not returned yet (R381). -/
def State.slotsUsed (s : State) (x : Nat) (p : SPort) (v : Vn) : Nat :=
  ((s.sprue.filter (fun h => h.x == x && h.p == .nb p && h.m.vn == v)).foldl (fun n h => n + msgSlots h.m) 0) +
  ((s.wires.filter (fun h => h.x == x && h.p == p && h.m.vn == v)).foldl (fun n h => n + msgSlots h.m) 0) +
  tblGet s.spFreed 0 (freedKey x p v)

/-- The slots a message stood in are free; their credits wait for a flit (R381). -/
def State.spFree (s : State) (x : Nat) (p : RPort) (m : NetMsg) : State :=
  match p with
  | .nb q => { s with spFreed := tblSet s.spFreed (freedKey x q m.vn) (tblGet s.spFreed 0 (freedKey x q m.vn) + msgSlots m) }
  | .loc => s

/-- A flit that leaves router x by port q returns the credits of the slots freed there (R381). -/
def State.spCredits (s : State) (x : Nat) (q : SPort) : State :=
  [Vn.req, .snp, .rsp, .dat, .esc].foldl (fun s v => { s with spFreed := tblSet s.spFreed (freedKey x q v) 0 }) s

/-- An output of a router. -/
inductive Out where
  | dir (p : SPort) | here | none
  deriving DecidableEq, Repr

/-- Dimension order: W or E until the column matches, then S or N, then local (Table 16.3, code 0). -/
def dimOrder (x d : Nat) : Out :=
  if d % 10 < x % 10 then .dir .w else if x % 10 < d % 10 then .dir .e
  else if d / 10 < x / 10 then .dir .s else if x / 10 < d / 10 then .dir .n else .here

/-- The output a route table entry selects (R384, Table 16.3). -/
def State.route (s : State) (x : Nat) (m : NetMsg) : Out :=
  let w := aRtr x (0x4000 + 4 * m.dest.val)
  match (if m.vn = .esc then s.fld w 4 3 else s.fld w 0 3) with
  | 0 => dimOrder x m.dest.val
  | 1 => .dir .n | 2 => .dir .e | 3 => .dir .s | 4 => .dir .w | 5 => .here | _ => .none

/-- A port carries messages. -/
def State.portActive (s : State) (x : Nat) (p : SPort) : Bool := (s.link x p).st == .active && s.linkHas x p

/-- Whether a message's route points at a port that is not ACTIVE, so that it moves to the escape channel (R394). -/
def State.mustEscape (s : State) (x : Nat) (m : NetMsg) : Bool :=
  m.vn != .esc && (match s.route x m with | .dir p => !s.portActive x p | _ => false)

/-- A held message moves to the escape channel of its router (R383, R394). -/
def State.spEscape (s : State) (h : Held) : State :=
  { s.spFree h.x h.p h.m with sprue := s.sprue.replace h { h with m := { h.m with vn := .esc } } }

/-- Every message whose route points at a port that is not ACTIVE moves to the escape channel at once (R394). -/
def State.spEscapes (s : State) : State := s.sprue.foldl (fun s h => if s.mustEscape h.x h.m then s.spEscape h else s) s

/-- Whether a held message waits on the escape channel for a port that is not ACTIVE (R394). -/
def State.heldNow (s : State) : Bool :=
  s.sprue.any (fun h => h.m.vn == .esc && (match s.route h.x h.m with | .dir p => !s.portActive h.x p | _ => false))

/-- What waits follows the routes and the ports, and SP_INT_STATUS.HELD follows what waits (R394). -/
def State.spNote (s : State) : State :=
  let s1 := s.spEscapes
  ({ s1 with sprueHeld := s1.heldNow } : State).note .sp

/-- A message leaves the buffer it stands in. -/
def State.spTake (s : State) (x : Nat) (p : RPort) (m : NetMsg) : State :=
  { s.spFree x p m with sprue := s.sprue.erase ⟨x, p, m⟩ }

/-- A message enters the buffer of an input, behind what its channel holds there. -/
def State.spPut (s : State) (x : Nat) (p : RPort) (m : NetMsg) : State := { s with sprue := s.sprue ++ [⟨x, p, m⟩] }

/-- The message at the head of a channel's buffer at an input. -/
def State.spHead (s : State) (x : Nat) (p : RPort) (v : Vn) : Option Held :=
  s.sprue.find? (fun h => h.x == x && h.p == p && h.m.vn == v)

/-- The link that SP_UNREACHABLE names: that of the input the message came by; for the local port, port N (log entry 32). -/
def spUnit (x : Nat) : RPort → Nat
  | .nb p => unitLink x (portNo p)
  | .loc => unitLink x 0

/-! ## Outputs (R381, R382) -/

/-- An output of router x can take a message: the local port always, a link while a credit for the channel is held (R381). -/
def State.spRoom (s : State) (x : Nat) (m : NetMsg) : Out → Bool
  | .here => true
  | .none => false
  | .dir q =>
    match facing x q with
    | none => false
    | some y => s.portActive x q && s.slotsUsed y (opposite q) m.vn + msgSlots m ≤ vnSlots m.vn

/-- A message leaves router x by an output: onto the link, or to the site's own units. -/
def State.spOut (s : State) (x : Nat) (p : RPort) (m : NetMsg) : Out → State
  | .dir q =>
    match facing x q with
    | some y => { s with wires := s.wires ++ [{ x := y, p := opposite q, fx := x, fp := p, m := m }] }
    | none => s
  | _ => s

/-- Where the turn of an output stands: among the inputs for a channel, or with c = 5 among the VNs. -/
def turnKey (x : Nat) (o : Out) (c : Nat) : Nat :=
  30 * x + 6 * (match o with | .dir q => portNo q | _ => 4) + c

/-- The elements of a list from place n on, and then those before it: a round robin whose turn is at n. -/
def rotate {α : Type} (l : List α) (n : Nat) : List α := l.drop n ++ l.take n

/-- The message that a channel offers an output: that of the first input in turn whose head goes there and may leave (R382). -/
def State.spOffer (s : State) (x : Nat) (o : Out) (v : Vn) : Option Held :=
  (rotate [RPort.nb .n, .nb .e, .nb .s, .nb .w, .loc] (tblGet s.spTurn 0 (turnKey x o (vnNo v)))).findSome? (fun p =>
    (s.spHead x p v).filter (fun h => s.route x h.m == o && s.spRoom x h.m o))

/-- The message an output serves next: the escape channel first, then the VNs in turn (R382). -/
def State.spNext (s : State) (x : Nat) (o : Out) : Option Held :=
  (Vn.esc :: rotate [Vn.req, .snp, .rsp, .dat] (tblGet s.spTurn 0 (turnKey x o 5))).findSome? (fun v => s.spOffer x o v)

/-- The turns of an output after it has served a message: the input, and for a VN the channel, come last (R382; log entry 96). -/
def State.spTurned (s : State) (x : Nat) (o : Out) (h : Held) : State :=
  let v := vnNo h.m.vn
  let t := tblSet s.spTurn (turnKey x o v) ((rportNo h.p + 1) % 5)
  { s with spTurn := if h.m.vn = .esc then t else tblSet t (turnKey x o 5) ((v + 1) % 4) }

/-- An output of router x serves one message, when one may leave by it. -/
def State.spServe (s : State) (x : Nat) (o : Out) : State :=
  match s.spNext x o with
  | none => s
  | some h => ((s.spTake x h.p h.m).spTurned x o h).spOut x h.p h.m o

/-- A message that its route table entry makes unreachable is discarded from the head of its buffer (Table 16.3, code 7). -/
def State.spUnreach (s : State) (x : Nat) (p : RPort) (m : NetMsg) : State :=
  if s.spHead x p m.vn = some ⟨x, p, m⟩ then
    (((s.spTake x p m).recv m.msg).bump32 (aSp 0xC) 1).raiseAt 24 (spUnit x p)
  else s

/-- SPRUE_MESSAGE (R382, R384): a message that stands first in its buffer, or that the site's own units hand to the local port, has its
output serve its next message. -/
def execSprueMessage (x : Fin 100) (p : RPort) (m : NetMsg) (s : State) : Host.Outcome State Fault Refusal :=
  .next (
    if !hasSite s.build x.val || !m.fits then s
    else if p ≠ .loc ∧ s.spHead x.val p m.vn ≠ some ⟨x.val, p, m⟩ then s
    else
      let s1 := (if p = .loc ∧ ¬ s.sprue.contains ⟨x.val, .loc, m⟩ then s.spPut x.val .loc m else s).spEscapes
      let e := if s.mustEscape x.val m then { m with vn := .esc } else m
      (match s1.route x.val e with
        | .none => s1.spUnreach x.val p e
        | o => s1.spServe x.val o).spNote)

/-- ESCAPE_MOVE (R383): the message at the head of its VN buffer has waited for ESC_WAIT, and an escape credit is available: it leaves
on the escape channel. -/
def execEscapeMove (x : Fin 100) (p : RPort) (vn : Vn) (s : State) : Host.Outcome State Fault Refusal :=
  .next (
    if vn = .esc then s
    else
      match s.spHead x.val p vn with
      | none => s
      | some h =>
        let e := { h.m with vn := .esc }
        match s.route x.val e with
        | .none => ((s.spEscape h).spUnreach x.val p e).spNote
        | o => if s.spRoom x.val e o then ((s.spEscape h).spServe x.val o).spNote else s)

/-! ## Links that fail -/

/-- A link enters FAILED (R393): the undelivered messages go back to their routers, or, when the sideband has failed too, are lost. -/
def State.linkFail (s : State) (x : Nat) (p : SPort) (sideband : Bool) : State :=
  match facing x p with
  | none => s
  | some y =>
    if (s.link x p).st = .failed then s
    else
      let on (w : Wire) : Bool := (w.x == x && w.p == p) || (w.x == y && w.p == opposite p)
      let ws := s.wires.filter on
      let s1 := { (s.spCredits x p).spCredits y (opposite p) with wires := s.wires.filter (fun w => !on w) }
      let s2 := if sideband then ws.foldl (fun s w => s.spPut w.fx w.fp w.m) s1
                else (ws.foldl (fun s w => s.recv w.m.msg) s1).bump32 (aSp 8) ws.length
      ((s2.setLink x p { (s.link x p) with st := .failed, modules := 0 }).raiseAt 23 (unitLink x (portNo p))).spNote

/-- Every link of a site that faces an occupied site is FAILED. -/
def State.cutOff (s : State) (x : Nat) : Bool :=
  [SPort.n, .e, .s, .w].all (fun p => !s.linkHas x p || (s.link x p).st == .failed)

/-- A keystone all of whose links have failed goes out of service (R514). -/
def State.linksLost (s : State) (x : Nat) : State :=
  match siteUnit x with
  | .ks k => if s.cutOff x then s.keyOut k else s
  | _ => s

/-- A link fails, with what its loss does at both ends. -/
def State.linkLost (s : State) (x : Nat) (p : SPort) (sideband : Bool) : State :=
  let s1 := (s.linkFail x p sideband).linksLost x
  match facing x p with
  | some y => s1.linksLost y
  | none => s1

/-- What a failed router holds is lost (log entry 62). -/
def State.routerEmpty (s : State) (x : Nat) : State :=
  let s1 := (s.sprue.filter (fun h => h.x == x)).foldl (fun s h => s.recv h.m.msg) s
  { s1 with sprue := s1.sprue.filter (fun h => !(h.x == x)) }

/-- A failed router (R395): every link of its site is FAILED, what it holds is lost, and a C-die's crucible has lost its port. -/
def State.routerFail (s : State) (x : Nat) : State :=
  let s1 := (([SPort.n, .e, .s, .w].filter (fun p => s.linkHas x p)).foldl (fun s p => s.linkLost x p false) s).routerEmpty x
  match siteUnit x with
  | .cru n => s1.cruFailed n .portLost
  | .ks k => s1.keyOut k
  | _ => s1

/-- ROUTER_FAILED (R395). -/
def execRouterFailed (x : Fin 100) (s : State) : Host.Outcome State Fault Refusal :=
  .next (if hasSite s.build x.val then s.routerFail x.val else s)

/-! ## Flits, training and retraining -/

/-- A link begins to retrain (R392): counted at both ends. -/
def State.linkRetrain (s : State) (x : Nat) (p : SPort) : State :=
  match facing x p with
  | none => s
  | some y =>
    (((s.setLink x p { (s.link x p) with st := .retrain }).bump (aRtrP x 0x30 p) 0 16 1).bump (aRtrP y 0x30 (opposite p)) 0 16 1).spNote

/-- One message of a module's slot stream meets what is left of a flit's slots: it is delivered when its last slot is in the flit, and
goes on in the next flit otherwise (R379). The triple is the slots left, the messages that stay on the link, and those delivered. -/
def flitMsg (sel : Wire → Bool) (j : Nat) (a : Nat × List Wire × List Wire) (w : Wire) : Nat × List Wire × List Wire :=
  if sel w && 0 < a.1 then
    let need := msgSlots w.m - w.got
    if need ≤ a.1 then (a.1 - need, a.2.1, a.2.2 ++ [w])
    else (0, a.2.1 ++ [{ w with j := some j, got := w.got + a.1 }], a.2.2)
  else (a.1, a.2.1 ++ [w], a.2.2)

/-- The slots of a flit of module j: first the message that the flit before left unfinished, then messages that no module carries yet. -/
def flitMsgs (x : Nat) (p : SPort) (j slots : Nat) (ws : List Wire) : List Wire × List Wire :=
  let a := ws.foldl (flitMsg (fun w => w.x == x && w.p == p && w.j == some j) j) (slots, [], [])
  let b := a.2.1.foldl (flitMsg (fun w => w.x == x && w.p == p && w.j == none) j) (a.1, [], [])
  (b.2.1, a.2.2 ++ b.2.2)

/-- Where the sequence number of a module's next flit stands. -/
def flitKey (x : Nat) (p : SPort) (j : Nat) : Nat := 24 * x + 6 * portNo p + j

/-- FLIT (R379, R392): module j of port p receives a flit, `count` of whose slots 0 to 30 carry the next slots of
the module's messages, or it fails its CRC; `replays` are the module's replays within 1 us. A flit that follows one which failed is
replayed with it and has no effect before (log entry 96). -/
def execFlit (x : Fin 100) (p : SPort) (j : Fin 6) (crcOk : Bool) (flit : Flit) (replays : Nat) (s : State) :
    Host.Outcome State Fault Refusal :=
  .next (
    if !s.portActive x.val p || (s.link x.val p).modules ≤ j.val then s
    else if crcOk then
      if flit.seq ≠ tblGet s.flitSeq 0 (flitKey x.val p j.val) then s
      else
        let f := flitMsgs x.val p j.val flit.count.val s.wires
        let s1 := { s with wires := f.1, sprue := s.sprue ++ f.2.map (fun (w : Wire) => (⟨w.x, .nb w.p, w.m⟩ : Held))
                           flitSeq := tblSet s.flitSeq (flitKey x.val p j.val) (flit.seq + 1) }
        (match facing x.val p with | some y => s1.spCredits y (opposite p) | none => s1).spNote
    else
      let s1 := s.bump32 (aRtrP x.val 0x20 p) 1
      if s.replayLimit < replays then s1.linkRetrain x.val p else s1)

/-- The modules and spare lanes a link has after training, with the faults of R391. The messages on the link are sent from their first
slot, on the modules that remain (R392). -/
def State.linkUp (s : State) (x : Nat) (p : SPort) (modules spares barren : Nat) : State :=
  let l := s.link x p
  let u := unitLink x (portNo p)
  let s1 := ({ s with wires := s.wires.map (fun w =>
    if (w.x = x ∧ w.p = p) ∨ (w.fx = x ∧ facing x p = some w.x ∧ w.p = opposite p) then { w with j := none, got := 0 } else w) } : State).setLink
      x p ⟨.active, modules, spares, barren⟩
  let s2 := if l.spares < spares then s1.raiseAt 21 u else s1
  let before := if l.st = .retrain then l.modules else 6
  (if modules < before then s2.raiseAt 22 u else s2).spNote

/-- LINK_TRAINED (R390, R391). -/
def execLinkTrained (x : Fin 100) (p : SPort) (modules : Fin 7) (spares : BitVec 8) (s : State) : Host.Outcome State Fault Refusal :=
  .next (
    if (s.link x.val p).st = .training && s.linkHas x.val p then
      if modules.val < s.minModules then s.linkLost x.val p true else s.linkUp x.val p modules.val spares.toNat 0
    else s)

/-- LINK_ABSENT (R389, R390): the normal state of a port that faces an empty site; no fault. -/
def execLinkAbsent (x : Fin 100) (p : SPort) (s : State) : Host.Outcome State Fault Refusal :=
  .next (if (s.link x.val p).st = .training then (s.setLink x.val p { st := .absent }).spNote else s)

/-- RETRAIN_END (R391, R392): back to ACTIVE, or FAILED after three retrains in a row that ended with fewer modules or no progress. -/
def execRetrainEnd (x : Fin 100) (p : SPort) (modules : Fin 7) (spares : BitVec 8) (progress : Bool) (sideband : Bool) (s : State) :
    Host.Outcome State Fault Refusal :=
  .next (
    let l := s.link x.val p
    if l.st ≠ .retrain then s
    else
      let barren := if modules.val < l.modules ∨ progress = false then l.barren + 1 else 0
      if modules.val < s.minModules ∨ 3 ≤ barren then s.linkLost x.val p sideband
      else s.linkUp x.val p modules.val spares.toNat barren)

/-- SP_ROUTE (R386): a control core of the active quoin writes a route table entry, which takes effect at once. -/
def State.spRoute (s : State) (r : Requester) (x : Nat) (dest : Nat) (p : Page) (d : Reg) : State :=
  if s.isFw r && hasSite s.build x then
    let a := aRtr x (0x4000 + 4 * dest)
    (s.setReg a (pageWrite p (s.reg a) d 0x77)).spNote
  else s

/-- SP_ROUTE (R386). -/
def execSpRoute (r : Requester) (x : Fin 100) (dest : Fin 100) (p : Page) (d : Reg) (s : State) : Host.Outcome State Fault Refusal := .next (s.spRoute r x.val dest.val p d)

end Sys2Proof.Machine
end

