-- ==== Sys2Proof/Machine/Gate.lean ====
section
/-! DEFINITION. Gates and heads (chapters 19, 20): link events and resets of a head (Table 19.5), master-enable, FLR and power states of an
LD (R463 to R465), HDM decoders (R456), IDE (R469), MCTP (R470), and the slot sequences of Cokeben (R473 to R480). -/

namespace Sys2Proof.Machine

open Sys2Proof

/-! ## Domains of a head -/

/-- The logical devices of head g by host-domain number, and those presented at its link (R450). -/
def headLds (g : Nat) : List Nat := (List.range 16).map (· + 16 * g)
def State.presented (s : State) (g : Nat) : List Nat := if (s.gate g).info.mld then headLds g else [16 * g]

/-- Every sweep that covers a dead domain of head g has ended (R316). -/
def State.sweptFor (s : State) (g : Nat) : Bool :=
  !s.kss.any (fun e => (headLds g).any (fun h => e.2.sweep.contains (aidHd h) || e.2.nextSweep.contains (aidHd h)))

/-! ## Link down and resets of a head (Table 19.5) -/

/-- The link-down row of Table 19.5. Requests that a chip reset keeps for the head are discarded (R555, R579). -/
def State.headDown (s : State) (g : Nat) : State :=
  let s1 := (s.bump (aGt g 0x4018) 0 16 1).modGate g (fun x =>
    { x with up := false, retraining := false, ltr := 0, info := ⟨0, 0, 0, false, false, false, false⟩, waitTags := false, releasing := false,
             ideLink := false, kept := [], tags := x.tags.map (fun e => if e.2.left.isNone then (e.1, { e.2 with left := some 64 }) else e) })
  let s2 : State := { s1 with kss := s1.kss.map (fun e => (e.1, { e.2 with release := setDel e.2.release g })) }
  let s3 := (headLds g).foldl (fun s h => (s.descsCut h 0x48).suspend h 4) s2
  (((headLds g).filter (fun h => s.attached.contains h)).foldl (fun s h => s.declareDead (aidHd h)) s3).note (.gt g)

/-- Configuration space of an LD at its reset values (R460): Bus Master Enable 0, no pending MSI-X message, D0, no FLR in progress. -/
def State.configReset (s : State) (h : Nat) : State :=
  ((s.unsuspend h 6).unsuspend h 7).modHd h (fun d =>
    { d with bme := false, d3hot := false, flr := false, msixTab := [], msixHeld := [], msixFmask := false, devCtl := 0x2810, devCtl2 := 0,
             bars := [] })

/-- A conventional reset of a head (Table 19.5): a link down, configuration reset, decoders cleared; R309 ends. -/
def State.headReset (s : State) (g : Nat) : State :=
  let s1 := (headLds g).foldl (fun s h =>
    ((s.suspend h 5).configReset h).modHd h (fun d => { d with decoders := [], biDead := false })) s
  let s2 := (if (s.gate g).up then s1.headDown g else s1.bump (aGt g 0x4018) 0 16 1).modGate g (fun x => { x with fmCtl := 0x2810, fmCtl2 := 0, fmBars := [] })
  (headLds g).foldl (fun s h => s.suspend h 4) s2

/-- What a domain does at R477 step 4: it is attached, no longer dead, and served by CXL.mem again. -/
def State.attachDomain (s : State) (h : Nat) : State :=
  ({ s with attached := setIns s.attached h, dead := setDel s.dead (aidHd h) }.unsuspend h 4).modHd h (fun d => { d with biDead := false })

/-- R477 step 4 at head g, whose link is up: once R316 is met. -/
def State.headAttach (s : State) (g : Nat) : State :=
  if s.slotState g ≠ 3 ∧ s.slotState g ≠ 4 then s
  else if s.sweptFor g then
    (((s.presented g).foldl (fun s h => s.attachDomain h) s).modGate g (fun x => { x with wantAttach := false, dropped := false })).setSlot g 4 1 0
  else s.modGate g (fun x => { x with wantAttach := true })

/-- The link of an LD has returned: the events of its unanswered offers are posted again (R255). -/
def State.repost (s : State) (h : Nat) : State :=
  s.modHd h (fun d => { d with dcLog := d.dcLog ++ d.events.filter (fun v => match v with | .add _ => true | .release _ => false) })

/-- LINK_L0 (R255, R448, R461, R477): the link reaches L0 from training, or after a retrain. -/
def execLinkL0 (g : Fin 8) (l : LinkInfo) (s : State) : Host.Outcome State Fault Refusal :=
  .next (
    let x := s.gate g.val
    if !s.gateIn g.val || (!x.training && !x.retraining) then s
    else
      let s1 := (s.modGate g.val (fun x => { x with up := true, training := false, retraining := false, info := l })).note (.gt g.val)
      let s2 := if l.degraded then s1.raiseAt 25 (unitGate g.val) else s1
      if x.retraining then s2.hostPush g.val else ((s2.presented g.val).foldl (fun s h => s.repost h) s2).headAttach g.val)

/-- LINK_RETRAIN (R461). -/
def execLinkRetrain (g : Fin 8) (s : State) : Host.Outcome State Fault Refusal :=
  .next (
    if (s.gate g.val).up && !(s.gate g.val).retraining then
      ((s.bump (aGt g.val 0x4018) 16 16 1).modGate g.val (fun x => { x with retraining := true })).note (.gt g.val)
    else s)

/-- A link that drops: link down, and the gate goes back to Detect while it may train. -/
def State.linkDrop (s : State) (g : Nat) : State :=
  let s1 := s.headDown g
  s1.modGate g (fun x => { x with training := s1.linkEnabled g && !x.perst, dropped := s1.slotState g == 4 })

/-- RETRAIN_TIMEOUT (R461): a link down. -/
def execRetrainTimeout (g : Fin 8) (s : State) : Host.Outcome State Fault Refusal :=
  .next (if (s.gate g.val).up && (s.gate g.val).retraining then s.linkDrop g.val else s)

/-- LINK_DOWN (Table 19.5). -/
def execLinkDown (g : Fin 8) (s : State) : Host.Outcome State Fault Refusal :=
  .next (if (s.gate g.val).up then s.linkDrop g.val else s)

/-- HOT_RESET (Table 19.5). -/
def execHotReset (g : Fin 8) (s : State) : Host.Outcome State Fault Refusal :=
  .next (
    if (s.gate g.val).up then
      let s1 := s.headReset g.val
      s1.modGate g.val (fun x => { x with training := s1.linkEnabled g.val && !x.perst })
    else s)

/-- FUNDAMENTAL_RESET (Table 19.5): PERST_N[g] is low; sticky bits are reset too, and training waits (R477). -/
def execFundamentalReset (g : Fin 8) (s : State) : Host.Outcome State Fault Refusal :=
  .next (
    if !s.gateIn g.val || !s.pinsLive then s
    else
      ((headLds g.val).foldl (fun s h => s.modHd h (fun d => { d with sanOnFlr := false, aer := 0 })) (s.headReset g.val)).modGate g.val
        (fun x => { x with perst := true, training := false, kept := [] }))

/-- PERST_N_RELEASE (R477): with LINK_EN at 1 the gate enters Detect. -/
def execPerstNRelease (g : Fin 8) (s : State) : Host.Outcome State Fault Refusal :=
  .next (
    if !s.gateIn g.val || !s.pinsLive then s
    else s.modGate g.val (fun x => { x with perst := false, training := x.training || (s.linkEnabled g.val && !x.up) }))

/-! ## Master-enable, FLR and power states (R463 to R465, Table 19.2) -/

/-- An LD of a head whose link is up: only there a host reaches its configuration space. -/
def State.ldUp (s : State) (h : Nat) : Bool := (s.gate (h / 16)).up && (s.presented (h / 16)).contains h && !s.ioHeld

/-- An LD issues no request any more (R463): the data of its open reads is discarded, and its descriptors with host-side requests end. -/
def State.ldHalt (s : State) (h status : Nat) : State :=
  (s.modGate (h / 16) (fun x => { x with tags := x.tags.map (fun e => if e.2.hd = h then (e.1, { e.2 with discard := true }) else e) })).descsCut h status

/-- MASTER_ENABLE_CLEAR (R463). -/
def execMasterEnableClear (h : Fin 128) (s : State) : Host.Outcome State Fault Refusal :=
  .next (
    if s.ldUp h.val && (s.hd h.val).bme then
      ((s.modHd h.val (fun d => { d with bme := false })).ldHalt h.val 0x49).suspend h.val 5
    else s)

/-- MASTER_ENABLE_SET (R463): the cause ends; the held messages are then sent (MSI_X_SEND). -/
def execMasterEnableSet (h : Fin 128) (s : State) : Host.Outcome State Fault Refusal :=
  .next (if s.ldUp h.val then (s.modHd h.val (fun d => { d with bme := true })).unsuspend h.val 5 else s)

/-- FLR (R464 step 1). -/
def execFlr (h : Fin 128) (s : State) : Host.Outcome State Fault Refusal :=
  .next (
    if s.ldUp h.val && !(s.hd h.val).flr then (s.modHd h.val (fun d => { d with flr := true })).suspend h.val 6 else s)

/-- The extents of which a domain is the only holder, and its pours, at an FLR with SANITIZE_ON_FLR (R465). -/
def State.flrSanitize (s : State) (h : Nat) : State :=
  if (s.hd h).sanOnFlr then
    let es := (s.extents.filter (fun e => e.2.st == .granted && e.2.holders == [h])).map (·.1)
    let s1 := s.modHd h (fun d => { d with flrExts := es, flrSanitizing := true })
    s1.pours.foldl (fun s p => if p.2.owner = h then s.modPour p.1 (fun y => { y with closed := true }) else s) s1
  else s

/-- FLR_COMPLETE (R464 steps 3 to 5, R465). -/
def execFlrComplete (h : Fin 128) (s : State) : Host.Outcome State Fault Refusal :=
  .next (
    if !(s.hd h.val).flr then s
    else
      let g := h.val / 16
      let s1 := (s.modGate g (fun x => { x with tags := x.tags.map (fun e =>
        if e.2.hd = h.val ∧ e.2.left.isNone then (e.1, { e.2 with left := some 64 }) else e) })).note (.gt g)
      (((s1.descsCut h.val 0x4A).configReset h.val).suspend h.val 5).flrSanitize h.val)

/-- D3HOT (Table 19.2, R439): as with master-enable cleared. -/
def execD3hot (h : Fin 128) (s : State) : Host.Outcome State Fault Refusal :=
  .next (
    if s.ldUp h.val && !(s.hd h.val).d3hot then ((s.modHd h.val (fun d => { d with d3hot := true })).ldHalt h.val 0x49).suspend h.val 7
    else s)

/-- D0_RETURN (Table 19.2, R439): it resets nothing. -/
def execD0Return (h : Fin 128) (s : State) : Host.Outcome State Fault Refusal :=
  .next (if s.ldUp h.val then (s.modHd h.val (fun d => { d with d3hot := false })).unsuspend h.val 7 else s)

/-! ## HDM decoders (R456) -/

/-- The checks of a Commit: `d` is the decoder with what the host wrote, `i` its index. -/
def State.hdmOk (s : State) (h i : Nat) (d : Hdm) : Bool :=
  let m := 2 ^ 28
  let others := (s.hd h).decoders.filter (fun e => e.2.committed)
  d.base % m == 0 && d.size % m == 0 && d.skip % m == 0 && [1, 2, 4, 8].contains d.ways && [256, 512, 1024, 2048, 4096].contains d.gran &&
  others.all (fun e =>
    if e.1 < i then e.2.base + e.2.size ≤ d.base && e.2.dpa + e.2.dpaLen ≤ d.dpa
    else d.base + d.size ≤ e.2.base && d.dpa + d.dpaLen ≤ e.2.dpa) &&
  d.dpa + d.dpaLen ≤ 64 * s.rowSize

/-- HDM_COMMIT (R456), with what the host has written in the decoder's fields. Its DPA range begins a skip above those of the decoders
below it. A locked decoder takes no further Commit. -/
def execHdmCommit (h : Fin 128) (f : HdmFields) (s : State) : Host.Outcome State Fault Refusal :=
  .next (
    if !s.ldUp h.val || (tblGet (s.hd h.val).decoders {} f.ix.val).locked then s
    else
      let below := ((s.hd h.val).decoders.filter (fun e => e.1 < f.ix.val && e.2.committed)).foldl (fun n e => max n (e.2.dpa + e.2.dpaLen)) 0
      let d : Hdm := { base := f.base, size := f.size, skip := f.skip, ways := f.ways, gran := f.gran, dpa := below + f.skip }
      let ok := s.hdmOk h.val f.ix.val d
      s.modHd h.val (fun x => { x with decoders := tblSet x.decoders f.ix.val { d with committed := ok, err := !ok, locked := ok && f.lock } }))

/-! ## Tags, IDE and MCTP -/

/-- Tags whose quarantine has run out are released (R459). -/
def State.tagsRelease (s : State) : State :=
  s.gates.foldl (fun s e => (s.modGate e.1 (fun x => { x with tags := x.tags.filter (fun t => t.2.left != some 0) })).note (.gt e.1)) s

/-- TAG_RELEASE (R459). -/
def execTagRelease (s : State) : Host.Outcome State Fault Refusal := .next s.tagsRelease

/-- One boundary of every quarantine (R459). -/
def State.tagsTick (s : State) : State :=
  ({ s with gates := s.gates.map (fun e => (e.1, { e.2 with tags := e.2.tags.map (fun t => (t.1, { t.2 with left := t.2.left.map (· - 1) })) })) } : State).tagsRelease

/-- IDE_FAIL (R469): stream i of the head, 16 being the Link IDE stream, enters Insecure. -/
def execIdeFail (g : Fin 8) (i : Fin 17) (s : State) : Host.Outcome State Fault Refusal :=
  .next (
    if (s.gate g.val).up then
      ((s.modGate g.val (fun x => { x with ideBad := setIns x.ideBad i.val, ideLink := x.ideLink && i.val != 16 })).note (.gt g.val)).raiseAt 27
        (unitGate g.val)
    else s)

/-- IDE_KEYS_PROGRAMMED (R469). -/
def execIdeKeysProgrammed (g : Fin 8) (i : Fin 17) (s : State) : Host.Outcome State Fault Refusal :=
  .next (
    if (s.gate g.val).up then
      (s.modGate g.val (fun x => { x with ideBad := setDel x.ideBad i.val, ideLink := x.ideLink || i.val == 16 })).note (.gt g.val)
    else s)

/-- MCTP_MESSAGE (R470): a message of a supported type reaches the quoin's firmware, on line 10. -/
def execMctpMessage (_b : MctpBinding) (ty : BitVec 8) (s : State) : Host.Outcome State Fault Refusal :=
  .next (
    if [0, 5, 6, 7, 8].contains ty.toNat then
      ({ s with fw := { s.fw with mctp := tblSet s.fw.mctp ty.toNat (tblGet s.fw.mctp 0 ty.toNat + 1) } } : State).latchLine s.active 10
    else s)

/-! ## Slot signals (R474, R475, R479) -/

/-- LINK_EN becomes 0 (R475). -/
def State.linkOff (s : State) (g : Nat) : State :=
  let s1 := (s.setFld (aSlot g) 1 1 0).modGate g (fun x => { x with training := false })
  if (s1.gate g).up then s1.headDown g else s1

/-- LINK_EN becomes 1: the gate enters Detect, once PERST_N is high (R475, R477). -/
def State.linkOn (s : State) (g : Nat) : State :=
  (s.setFld (aSlot g) 1 1 1).modGate g (fun x => { x with training := !x.perst && !x.up })

/-- LINK_EN: a write of GT_SLOT_CTRL (Table 20.1). -/
def State.slotCtrl (s : State) (r : Requester) (g : Nat) (p : Page) (d : Reg) : State :=
  if s.isFw r && s.gateIn g then
    let v := pageWrite p (s.reg (aSlot g)) d 0x3F
    let was := s.linkEnabled g
    let s1 := s.setReg (aSlot g) v
    if was && !v.getLsbD 1 then s1.linkOff g
    else if !was && v.getLsbD 1 then s1.linkOn g
    else s1
  else s

/-- LINK_EN (Table 20.1). -/
def execLinkEn (r : Requester) (g : Fin 8) (p : Page) (d : Reg) (s : State) : Host.Outcome State Fault Refusal := .next (s.slotCtrl r g.val p d)

/-- PRSNT_CHANGE (R474, R479): a card that goes takes PWR_EN and LINK_EN with it. -/
def execPrsntChange (g : Fin 8) (present : Bool) (s : State) : Host.Outcome State Fault Refusal :=
  .next (
    if !s.gateIn g.val || !s.pinsLive || (s.gate g.val).prsnt == present then s
    else
      let s1 := (s.modGate g.val (fun x => { x with prsnt := present, prsntCount := (x.prsntCount + 1) % 256 })).note (.gt g.val)
      if !present && s.slotState g.val != 0 then
        let s2 := (s1.setFld (aSlot g.val) 0 1 0).linkOff g.val
        ((headLds g.val).foldl (fun s h => s.suspend h 4) s2).note (.gt g.val)
      else s1)

/-- ATTN_PRESS (R474). -/
def execAttnPress (g : Fin 8) (s : State) : Host.Outcome State Fault Refusal :=
  .next (if s.gateIn g.val && s.pinsLive then s.modGate g.val (fun x => { x with attnCount := (x.attnCount + 1) % 256 }) else s)

/-! ## Slot sequences (Table 20.2, R477, R478, R480) -/

/-- R477 step 2. -/
def State.slotPower (s : State) (g : Nat) : State :=
  ((s.setFld (aSlot g) 0 1 1).setSlot g 2 2 0).modGate g (fun x => { x with wantAttach := false })

/-- R477 step 1: from OFF, at once or when R316 is met. -/
def State.slotStart (s : State) (g : Nat) : State :=
  if s.slotState g ≠ 1 then s
  else if s.sweptFor g then s.slotPower g else s.modGate g (fun x => { x with wantAttach := true })

/-- R477 step 5, R480: the slot in FAULT. -/
def State.slotFault (s : State) (g : Nat) : State :=
  (((s.linkOff g).setFld (aSlot g) 0 1 0).setSlot g 7 0 1).modGate g (fun x => { x with dropped := false, wantAttach := false })

/-- What SLOT_SCAN does at one slot: presence first, then the button. A card that went and came back between two scans is a removal too.
DESIGN CHOICE (log entry 102): a press found beside a presence change waits for the next scan, so that the slot moves once. -/
def State.slotAct (s : State) (g : Nat) : State :=
  let x := s.gate g
  let st := s.slotState g
  let gone := !x.prsnt || x.prsntCount != x.seenPrsnt
  let s0 := s.modGate g (fun x => { x with seenPrsnt := x.prsntCount })
  let s1 := s0.modGate g (fun x => { x with seenAttn := x.attnCount })
  if gone && st != 0 then (s0.setSlot g 0 0 0).modGate g (fun x => { x with wantAttach := false, dropped := false })
  else if !x.prsnt then s1
  else if st = 0 then s0.setSlot g 1 0 0
  else if x.attnCount != x.seenAttn then
    (match st with
    | 1 => s1.slotStart g
    | 4 => s1.setSlot g 5 2 0
    | 5 => s1.setSlot g 4 1 0
    | 7 => s1.setSlot g 1 0 0
    | _ => s1)
  else if x.wantAttach then (if x.up then s1.headAttach g else s1.slotStart g)
  else s1

/-- SLOT_SCAN (R476): once in a course, after its event. -/
def execSlotScan (s : State) : Host.Outcome State Fault Refusal :=
  .next (
    if s.fw.scanDue then
      ((List.range 8).filter (fun g => s.gateIn g)).foldl (fun s g => s.slotAct g) { s with fw := { s.fw with scanDue := false } }
    else s)

/-- ATTACH (R477 steps 1 and 2): an attach that has waited for R316 goes on. -/
def execAttach (g : Fin 8) (s : State) : Host.Outcome State Fault Refusal :=
  .next (
    if (s.gate g.val).wantAttach && s.sweptFor g.val then (if (s.gate g.val).up then s.headAttach g.val else s.slotStart g.val) else s)

/-- POWERING_TIMEOUT (R477 step 3). -/
def execPoweringTimeout (g : Fin 8) (s : State) : Host.Outcome State Fault Refusal :=
  .next (if s.slotState g.val = 2 then (s.linkOn g.val).setSlot g.val 3 2 0 else s)

/-- TRAINING_TIMEOUT (R477 steps 3 and 5): the limit does not run while PERST is 1. -/
def execTrainingTimeout (g : Fin 8) (s : State) : Host.Outcome State Fault Refusal :=
  .next (
    if s.slotState g.val = 3 ∧ (s.gate g.val).up = false ∧ (s.gate g.val).perst = false then
      (s.slotFault g.val).mark 0x0051 (unitGate g.val) 3 0 0 0
    else s)

/-- LINK_RETURN_TIMEOUT (R480): the link dropped and has not come back within 1 s. -/
def execLinkReturnTimeout (g : Fin 8) (s : State) : Host.Outcome State Fault Refusal :=
  .next (if s.slotState g.val = 4 ∧ (s.gate g.val).up = false ∧ (s.gate g.val).dropped = true then s.slotFault g.val else s)

/-- DETACH_PENDING_TIMEOUT (Table 20.2). -/
def execDetachPendingTimeout (g : Fin 8) (s : State) : Host.Outcome State Fault Refusal :=
  .next (if s.slotState g.val = 5 then s.setSlot g.val 6 2 0 else s)

/-- DETACH (R478 steps 1 and 2). -/
def execDetach (g : Fin 8) (s : State) : Host.Outcome State Fault Refusal :=
  .next (
    if s.slotState g.val = 6 ∧ (s.gate g.val).waitTags = false ∧ (s.gate g.val).releasing = false then
      ((headLds g.val).foldl (fun s h => s.suspend h 4) s).modGate g.val (fun x => { x with waitTags := true })
    else s)

/-- The entries of keystone k that a release sweep of head g still has to clear: lines and granules (R478 step 3). -/
def Ks.releaseLeft (x : Ks) (g : Nat) : List (Nat × DirEnt) × List (Nat × RegEnt) :=
  let mine (o : Nat) : Bool := isHostAid o && (o - 0x100) / 16 == g
  let bits (v : BitVec 25) : Bool := v.getLsbD (2 * g) || v.getLsbD (2 * g + 1)
  (x.dir.filter (fun e => match e.2.st with | .he o => mine o | .hs _ v => bits v), x.regions.filter (fun e => bits e.2.vec))

/-- The release sweep at one keystone: a Back-Invalidate snoop for each line and each granule with no open transaction. -/
def State.releaseRun (s : State) (k g : Nat) : State :=
  let left := (s.ks k).releaseLeft g
  let req (line : Nat) : Msg := { kind := .wrf, aid := 0x1FF, home := k, line := line, tag := g }
  let s1 := left.1.foldl (fun s e =>
    if (s.ks k).busy e.1 || !s.internalRoom k then s
    else
      let t : Txn := { line := e.2.line, sla := e.1, kind := .release, phase := .main, req := req e.2.line }
      let tos := match e.2.st with
        | .he o => if s.dead.contains o then [] else [o]
        | .hs _ v => s.vecHosts (v &&& BitVec.ofNat 25 (3 * 2 ^ (2 * g)))
      let (t1, s1) := s.snoop k t .snpInv tos
      s1.modKs k (fun x => { x with txns := x.txns ++ [t1] })) s
  let s2 := left.2.foldl (fun s e =>
    if (s.ks k).granBusy e.1 || !s.internalRoom k then s
    else s.txnStart k { line := e.2.gran * 64, sla := e.1 * 64, kind := .release, phase := .rinv, req := req (e.2.gran * 64) }) s1
  s2.homeRun k

/-- RELEASE_SWEEP (R478 step 3): the open tags are 0, or 100 ms have passed. -/
def execReleaseSweep (g : Fin 8) (s : State) : Host.Outcome State Fault Refusal :=
  .next (
    if (s.gate g.val).waitTags then
      s.keysUp.foldl (fun s k => (s.modKs k (fun x => { x with release := setIns x.release g.val })).releaseRun k g.val)
        (s.modGate g.val (fun x => { x with waitTags := false, releasing := true }))
    else s)

/-- The release sweep of head g has ended at keystone k. -/
def State.releaseDone (s : State) (k g : Nat) : Bool :=
  let l := (s.ks k).releaseLeft g
  l.1.isEmpty && l.2.isEmpty && !(s.ks k).txns.any (fun t => t.kind == .release && t.req.tag == g)

/-- RELEASE_SWEEP_END (R478 steps 4 and 5). -/
def execReleaseSweepEnd (g : Fin 8) (s : State) : Host.Outcome State Fault Refusal :=
  .next (
    if !(s.gate g.val).releasing then s
    else if s.keysUp.all (fun k => s.releaseDone k g.val) then
      let s1 : State := { s with kss := s.kss.map (fun e => (e.1, { e.2 with release := setDel e.2.release g.val })) }
      ((s1.linkOff g.val).setFld (aSlot g.val) 0 1 0).setSlot g.val 1 0 0
    else s.keysUp.foldl (fun s k => s.releaseRun k g.val) s)

/-! ## The end of a reclaim sweep (R312, R316) -/

/-- RECLAIM_SWEEP_END (R312): the sweep has met every entry, and the next one starts when further agents are pending. -/
def execReclaimSweepEnd (k : Fin 24) (s : State) : Host.Outcome State Fault Refusal :=
  .next (
    let x := s.ks k.val
    if !x.sweeping then s
    else if x.sweepLeft then s.sweepRun k.val
    else
      let s1 := (s.bump (aKs k.val 0x4044) 0 16 1).modKs k.val (fun x =>
        { x with sweep := x.nextSweep, nextSweep := [], sweeping := !x.nextSweep.isEmpty,
                 tagFail := x.tagFail.filter (fun a => x.nextSweep.contains a) })
      (if (s1.ks k.val).sweeping then s1.sweepRun k.val else s1).sweepEnded)

end Sys2Proof.Machine
end

