-- ==== Sys2Proof/Machine/Quoin.lean ====
section
/-! DEFINITION. The quoin and its firmware (chapter 21): boot and images (R485 to R488), SPDM (R489), the host mailbox (R491, R492),
beats, core release, inter-core interrupts (R494, R497), and takeover (R495, R496). -/

namespace Sys2Proof.Machine

open Sys2Proof

/-- Quoins of the build. -/
def State.quoinsAll (s : State) : List Nat := (List.range 4).filter (fun e => hasE s.build e)

def State.modQuoin (s : State) (e : Nat) (f : Quoin → Quoin) : State := s.setQuoin e (f (s.quoin e))
def State.modFw (s : State) (f : Fw → Fw) : State := { s with fw := f s.fw }

/-! ## Images (R485, R486) -/

/-- The header bytes 0x000 to 0x0FF of an image (Table 21.2), which its signature covers. -/
def imageHead (i : FwImage) : List Byte :=
  leBytes 4 i.magic.toNat ++ leBytes 4 i.format.toNat ++ leBytes 4 i.version.toNat ++ leBytes 4 i.svn.toNat ++ leBytes 4 i.length.toNat ++
  leBytes 4 i.entry.toNat ++ leBytes 40 0 ++ leBytes 48 i.digest ++ leBytes 16 0 ++ leBytes 96 i.pubkey ++ leBytes 32 0

/-- The bytes of an image in its slot: the 4 KiB header and the body. -/
def imageBytes (i : FwImage) : List Byte := imageHead i ++ leBytes 96 i.signature ++ leBytes (0x1000 - 0x160) 0 ++ i.body

/-- SVN_FLOOR (Table 21.8). -/
def State.svnFloor (s : State) : Nat := s.fld (aQnOf s.active 0x30018) 0 6

/-- The conditions of R486, at the quoin whose KEY_HASH is fused into E-die e. -/
def State.imageValid (s : State) (e : Nat) (i : FwImage) : Bool :=
  i.magic == 0x4E424B43 && i.format == 1 &&
  Config.keyHashOk i.pubkey (Config.keyHash e) &&
  Config.signatureOk i.pubkey i.signature (leNat (imageHead i)) &&
  (Config.sha384 i.body.length (leNat i.body)).toNat == i.digest && i.body.length == i.length.toNat &&
  1 ≤ i.length.toNat && i.length.toNat ≤ 0x1FF000 &&
  bitsOf i.version 16 16 == s.fld 4 16 16 && bitsOf i.version 0 16 ≤ s.fld 4 0 16 && s.svnFloor ≤ bitsOf i.svn 0 6

/-- A slot of the code store. -/
def State.fwSlot (s : State) (n : Nat) : FwSlotSt := if n = 1 then s.fw.slot1 else s.fw.slot2
def State.setFwSlot (s : State) (n : Nat) (x : FwSlotSt) : State :=
  s.modFw (fun f => if n = 1 then { f with slot1 := x } else { f with slot2 := x })

/-- Offset of a slot in the code window (Table 21.1). -/
def slotOff (n : Nat) : Nat := if n = 1 then 0x100000 else 0x300000

/-- An image stands in a slot of every quoin present (R487 step 4, R488). -/
def State.imageStore (s : State) (n : Nat) (i : FwImage) : State :=
  let s1 := s.quoinsAll.foldl (fun (s : State) e =>
    { s with code := memWrite (memClear s.code (2 ^ 23 * e + slotOff n) 0x200000) (2 ^ 23 * e + slotOff n) (imageBytes i) }) s
  s1.setFwSlot n { img := some i }

/-- A slot is empty. -/
def State.slotEmpty (s : State) (n : Nat) : State :=
  let s1 := s.quoinsAll.foldl (fun (s : State) e => { s with code := memClear s.code (2 ^ 23 * e + slotOff n) 0x200000 }) s
  s1.setFwSlot n {}

/-- The image running. -/
def State.running (s : State) : Option FwImage := (s.fwSlot s.fw.run).img

/-- RUN_SLOT, the slots' states, SVN and SVN_FLOOR in every quoin's QN_FW_STATUS (Table 21.8); RAISE_SVN of a valid image that runs
raises the floor (R486). -/
def State.fwStatus (s : State) : State :=
  let slot (x : FwSlotSt) : Nat := if x.img.isNone then 0 else if x.pending then 2 else 1
  let svn := match s.running with | some i => bitsOf i.svn 0 6 | none => 0
  let raises := match s.running with | some i => i.svn.getLsbD 8 | none => false
  let floor := if raises then max s.svnFloor svn else s.svnFloor
  s.quoinsAll.foldl (fun s e =>
    s.setReg (aQnOf e 0x30018)
      (BitVec.ofNat 32 (s.fw.run % 4 * 2 ^ 24 + slot s.fw.slot2 * 2 ^ 20 + slot s.fw.slot1 * 2 ^ 16 + svn * 2 ^ 8 + floor))) s

/-! ## Boot (Table 21.3) -/

/-- A core in its initial state at a PC (R135, R487). -/
def bootCore (pc : Nat) : Core := { out := true, mki := { pc := pc } }

/-- Step 6: a dormant quoin's cores wait in WFI with IEN set for lines 0 and 12 (R494). Where their code then stands is the image's: the
PC is a free value (log entry 1). -/
def State.warmUp (s : State) (e : Nat) : State :=
  ((List.range 4).foldl (fun s c =>
    let (v, s1) := s.takeWord
    s1.startCore (coreNo e c) { out := true, wfi := true, mki := { pc := v.toNat % 2 ^ 38 * 8, ien := 0x1001 } }) s).modQuoin e (fun q => { q with booted := true })

/-- Steps 4 to 6: the image runs. Core 0 of the active quoin jumps to ENTRY; a dormant quoin at which the copy is valid warms up. -/
def State.bootRun (s : State) (n : Nat) (i : FwImage) : State :=
  let s1 := (s.modFw (fun f => { f with run := n, waitImage := false })).fwStatus
  let a := s1.active
  let s2 := s1.startCore (coreNo a 0) (bootCore (s1.codeWindow + slotOff n + 0x1000 + i.entry.toNat))
  let s3 := s2.modQuoin a (fun q => { q with booted := true })
  (s3.quoinsAll.filter (fun e => e != a && (s3.quoin e).passed && s3.imageValid e i)).foldl (fun s e => s.warmUp e) s3

/-- A slot whose image is valid at the active quoin. -/
def State.slotValid (s : State) (n : Nat) : Option FwImage :=
  match (s.fwSlot n).img with
  | some i => if s.imageValid s.active i then some i else none
  | none => none

/-- Step 2: the slot of RUN_SLOT, or the one pending for this reset, then the other; step 3 where neither is valid. -/
def State.bootSlots (s : State) : State :=
  let first := if s.fw.slot1.pending then 1 else if s.fw.slot2.pending then 2 else s.fw.run
  let s0 := s.modFw (fun f => { f with slot1 := { f.slot1 with pending := false }, slot2 := { f.slot2 with pending := false } })
  let other := if first = 1 then 2 else 1
  match (if first = 0 then none else s0.slotValid first), s0.slotValid other with
  | some i, _ => s0.bootRun first i
  | none, some i => if first = 0 then s0.modFw (fun f => { f with waitImage := true }) else s0.bootRun other i
  | none, none => s0.modFw (fun f => { f with waitImage := true })

/-- BOOT (Table 21.3 steps 1 to 6): the quoins of `passed` have passed their self-test, and the lowest of them is active (R17) and gives QN_SERIAL at power-up (R572). It runs
in bring-up, once the sprue links are trained. -/
def execBoot (porst : Bool) (passed : BitVec 4) (s : State) : Host.Outcome State Fault Refusal :=
  .next (
    if s.rst.phase ≠ .none ∨ !s.stepEnded 2 ∨ s.stepEnded 3 ∨ porst = s.rst.afterChip then s
    else
      let ok (e : Nat) : Bool := passed.getLsbD e && !s.rst.badDies.contains (siteE e)
      match s.quoinsAll.find? ok with
      | none => s
      | some a =>
        let s0 : State := { s with active := a, rst := { s.rst with steps := setIns (setIns s.rst.steps 3) 5 } }
        let s1 := s0.quoinsAll.foldl (fun s e => s.modQuoin e (fun _ => { passed := ok e })) s0
        let s2 := s1.quoinsAll.foldl (fun s e => s.setCore (coreNo e 0) (bootCore s.codeWindow)) s1
        if porst then (s2.setReg64 0x10 (Config.serial a).toNat).modFw (fun f => { f with waitImage := true }) else s2.bootSlots)

/-! ## CCI firmware commands (R488) -/

/-- GET_FW_INFO: slots supported, the running slot, the slot pending, online activation, and each slot's version. -/
def execGetFwInfo (s : State) : Host.Outcome State Fault Refusal :=
  .next (
    let v (x : FwSlotSt) : Nat := match x.img with | some i => i.version.toNat | none => 0
    s.answer (.success [2, s.fw.run, if s.fw.slot1.pending then 1 else if s.fw.slot2.pending then 2 else 0,
      b2n (1 < buildEdies s.build), v s.fw.slot1, v s.fw.slot2]))

/-- TRANSFER_FW: into the slot that is not running; while the boot ROM waits, into slot 1 (Table 21.3 step 3). -/
def execTransferFw (slot : FwSlot) (img : FwImage) (last : Bool) (s : State) : Host.Outcome State Fault Refusal :=
  .next (
    let n := match slot with | .slot1 => 1 | .slot2 => 2
    if s.fw.run = n ∨ (s.fw.waitImage = true ∧ n ≠ 1) then s.answer .invalidInput
    else if !last then ((s.slotEmpty n).fwStatus).answer (.success [])
    else if s.imageValid s.active img then
      let s1 := (s.imageStore n img).fwStatus.answer (.success [])
      if s.fw.waitImage then s1.bootRun 1 img else s1
    else ((s.slotEmpty n).fwStatus).answer .invalidInput)

/-- ACTIVATE_FW. -/
def execActivateFw (slot : FwSlot) (online : Bool) (s : State) : Host.Outcome State Fault Refusal :=
  .next (
    let n := match slot with | .slot1 => 1 | .slot2 => 2
    if online && buildEdies s.build == 1 then s.answer .unsupported
    else if (s.fwSlot n).img.isNone then s.answer .invalidInput
    else if online then (s.modFw (fun f => { f with online := some n })).answer (.success [])
    else
      ((s.modFw (fun f => { f with slot1 := { f.slot1 with pending := n == 1 }, slot2 := { f.slot2 with pending := n == 2 } })).fwStatus).answer
        (.success []))

/-! ## Measurements (R489) -/

/-- SHA-384 of the boot ROM. -/
def romHash : Nat := (Config.sha384 0x40000 (leNat ((List.range 0x40000).map Config.bootRom))).toNat

/-- A measurement block (Table 21.4); index 0 asks for their number, as SPDM has it. -/
def State.measure (s : State) : Nat → Resp
  | 0 => .success [5]
  | 1 => .success [romHash]
  | 2 => .success [match s.running with | some i => i.digest | none => 0]
  | 3 => .success [match s.running with | some i => leNat ((imageHead i).take 0x40) | none => 0]
  | 4 => .success [Config.keyHash s.active, s.svnFloor]
  | _ => .success [s.active, (s.reg 4).toNat]

/-- SPDM_REQUEST: the active quoin is the responder; its chain ends in the device key of its E-die. -/
def execSpdmRequest (req : SpdmReq) (s : State) : Host.Outcome State Fault Refusal :=
  .next (
    match req with
    | .getCertificate => s.answer (.success [s.active])
    | .getMeasurement i => s.answer (s.measure i.val)
    | .startSession => (s.modFw (fun f => { f with spdm := true })).answer (.success []))

/-! ## The host mailbox (R491) -/

/-- The end of a command: RESULT, BUSY falls, and the completion message is due. -/
def State.mailEnd (s : State) (h result : Nat) : State :=
  ((s.setReg (aHmb h 4) (BitVec.ofNat 32 result)).modFw (fun f => { f with mail := tblDel f.mail h })).msix h (s.fld (aHmb h 0) 8 8)

/-- Response bytes. -/
def State.mailResp (s : State) (h : Nat) (bs : List Byte) : State :=
  (List.range 64).foldl (fun s i => s.setReg (aHmb h (0x200 + 4 * i)) (BitVec.ofNat 32 (leNat ((bs.drop (4 * i)).take 4)))) s

/-- A command with GO (R491): BUSY, and line 9; a command that Table 21.6 does not have ends at once with BAD_FIELD. -/
def State.mailGo (s : State) (h : Nat) : State :=
  if (tblFind s.fw.mail h).isSome then s
  else
    let c := s.fld (aHmb h 0) 0 8
    let s1 := ((s.modFw (fun f => { f with mail := tblSet f.mail h c })).setFld (aHmb h 4) 31 1 1).latchLine s.active 9
    if 1 ≤ c ∧ c ≤ 4 then s1 else s1.mailEnd h 0x21

/-- Serving a command of the mailbox: its effect and RESULT. -/
def State.mailServe (s : State) (h c : Nat) : State :=
  if tblFind s.fw.mail h ≠ some c then s
  else
    let g := s.fld (aHmb h 0x100) 0 8
    match c with
    | 1 =>
      let svn := s.fld (aQnOf s.active 0x30018) 8 6
      let dig := match s.running with | some i => i.digest | none => 0
      (s.mailResp h (leBytes 4 (s.reg 4).toNat ++ leBytes 1 s.active ++ leBytes 1 svn ++ leBytes 1 s.activeCrus.length ++
        leBytes 1 s.risersLeft.length ++ leBytes 48 dig)).mailEnd h 0
    | 2 =>
      if 8 ≤ g then s.mailEnd h 0x21
      else if s.slotState g ≠ 1 then s.mailEnd h 0x51
      else (s.slotStart g).mailEnd h 0
    | 3 =>
      if 8 ≤ g then s.mailEnd h 0x21
      else if h / 16 ≠ g then s.mailEnd h 0x50
      else if s.slotState g ≠ 4 then s.mailEnd h 0x51
      else (s.setSlot g 5 2 0).mailEnd h 0
    | _ =>
      if 8 ≤ g then s.mailEnd h 0x21
      else (s.mailResp h (leBytes 1 (s.slotState g) ++ leBytes 1 (b2n (s.gate g).prsnt))).mailEnd h 0

/-- GET_INFO (Table 21.6). -/
def execGetInfo (h : Fin 128) (s : State) : Host.Outcome State Fault Refusal := .next (s.mailServe h.val 1)

/-- SLOT_ATTACH (Table 21.6). -/
def execSlotAttach (h : Fin 128) (s : State) : Host.Outcome State Fault Refusal := .next (s.mailServe h.val 2)

/-- SLOT_DETACH (Table 21.6). -/
def execSlotDetach (h : Fin 128) (s : State) : Host.Outcome State Fault Refusal := .next (s.mailServe h.val 3)

/-- SLOT_QUERY (Table 21.6). -/
def execSlotQuery (h : Fin 128) (s : State) : Host.Outcome State Fault Refusal := .next (s.mailServe h.val 4)

/-! ## Beats, cores and inter-core interrupts (R494, R497) -/

/-- BEAT (Table 21.8): core c of quoin e writes its own quoin's QN_HEARTBEAT. -/
def State.beat (s : State) (e : Nat) (_c : Nat) (d : Reg) : State :=
  if hasE s.build e then s.modQuoin e (fun q => { q with beats := q.beats ||| BitVec.ofNat 4 (bitsOf d 4 4) }) else s

/-- BEAT (Table 21.8). -/
def execBeat (e : Fin 4) (_c : Fin 4) (d : Reg) (s : State) : Host.Outcome State Fault Refusal := .next (s.beat e.val _c.val d)

/-- HANDOVER (R495): accepted only from the active quoin. -/
def State.handoverCmd (s : State) (r : Requester) : State :=
  if s.isFw r then s.modQuoin s.active (fun q => { q with handover := true }) else s

/-- HANDOVER (R495). -/
def execHandover (r : Requester) (s : State) : Host.Outcome State Fault Refusal := .next (s.handoverCmd r)

/-- CORE_RELEASE (Table 21.8): core 0 of a quoin releases cores of it at QN_CORE_ENTRY. -/
def State.coreRelease (s : State) (e : Nat) (c : Nat) (d : Reg) : State :=
  if c = 0 ∧ hasE s.build e = true then
    (List.range 4).foldl (fun s i =>
      if d.getLsbD (4 + i) && !(s.core (coreNo e i)).out then
        s.startCore (coreNo e i) (bootCore (s.reg64 (aQnOf e 0x30010) / 8 * 8 % 2 ^ 41))
      else s) s
  else s

/-- CORE_RELEASE (Table 21.8). -/
def execCoreRelease (e : Fin 4) (c : Fin 4) (d : Reg) (s : State) : Host.Outcome State Fault Refusal := .next (s.coreRelease e.val c.val d)

/-- IPI_RAISE (Table 21.8): line 11 of the cores named. -/
def State.ipiRaise (s : State) (e : Nat) (_c : Nat) (d : Reg) : State :=
  if hasE s.build e then
    ((List.range 4).foldl (fun s i => if d.getLsbD i then s.modCore (coreNo e i) (fun k => { k with ipi := true }) else s) s).wakeCores
  else s

/-- IPI_RAISE (Table 21.8). -/
def execIpiRaise (e : Fin 4) (_c : Fin 4) (d : Reg) (s : State) : Host.Outcome State Fault Refusal := .next (s.ipiRaise e.val _c.val d)

/-- IPI_CLEAR (Table 21.8): a core removes its own cause. -/
def State.ipiClear (s : State) (e : Nat) (c : Nat) (d : Reg) : State :=
  if d.getLsbD c then s.modCore (coreNo e c) (fun k => { k with ipi := false }) else s

/-- IPI_CLEAR (Table 21.8). -/
def execIpiClear (e : Fin 4) (c : Fin 4) (d : Reg) (s : State) : Host.Outcome State Fault Refusal := .next (s.ipiClear e.val c.val d)

/-! ## Takeover (R494 to R496, R520) -/

/-- Step 4 of a boundary at the quoins: the beats of the course just ended are counted, where that course is judged. -/
def State.beatsCount (s : State) : State :=
  s.quoinsAll.foldl (fun s e =>
    s.modQuoin e (fun q =>
      if s.tb.unjudged then { q with beats := 0 }
      else if q.beats = 0xF then { q with beats := 0, beatRun := q.beatRun + 1, missRun := 0 }
      else { q with beats := 0, beatRun := 0, missRun := q.missRun + 1 })) s

/-- The judgment of step 4 (R495, R520), on a state whose beats have been counted: the successor of a takeover, and whether the rule of
the heartbeat itself is met. -/
def State.judgeBeat (s : State) : Option Nat × Bool :=
  let lost := s.missLimit ≤ (s.quoin s.active).missRun && !s.tb.unjudged
  (if lost || (s.quoin s.active).handover || s.fw.online.isSome then s.successor else none, lost)

/-- TAKEOVER_DECISION (R495). -/
def State.takeoverDecide (s : State) (by_ : State) : State :=
  match s.takeover, by_.judgeBeat with
  | none, (some e, lost) =>
    let s1 : State := { s with takeover := some e }
    if lost then (s1.raiseAt 42 (unitQuoin s.active)).modFc (fun f => { f with hbLost := s.fc.hbLost }) else s1
  | _, _ => s

/-- HEARTBEAT_LOST (R520): with no warm dormant quoin the collector judges. -/
def State.beatLost (s : State) (by_ : State) : State :=
  match s.takeover, by_.judgeBeat with
  | none, (none, true) =>
    if by_.successor.isNone && !s.fc.hbLost then (s.raiseAt 42 (unitQuoin s.active)).modFc (fun f => { f with hbLost := true }) else s
  | _, _ => s

/-- TAKEOVER_DECISION: at step 4 of the boundary that is due; the takeover takes place at the boundary after that one. -/
def execTakeoverDecision (s : State) : Host.Outcome State Fault Refusal :=
  .next (
    if s.tb.due && !s.inReset && s.takeover.isNone && s.takeLate.isNone then
      let s1 := s.takeoverDecide s.beatsCount
      { s1 with takeover := none, takeLate := s1.takeover }
    else s)

/-- HEARTBEAT_LOST: at step 4 of the boundary that is due; the chip reset comes at the boundary after that one. -/
def execHeartbeatLost (s : State) : Host.Outcome State Fault Refusal :=
  .next (
    if s.tb.due && !s.inReset && s.takeLate.isNone && !s.fc.hbLost && !s.fc.hbLate then
      (s.beatLost s.beatsCount).modFc (fun f => { f with hbLost := false, hbLate := f.hbLost })
    else s)

/-- Step 1 of R495: the successor is the active quoin; the former one's cores are held in reset, dead as agents (R310), or restart on the new slot (R488).
PHASE becomes 3 (Table 15.3), and mailboxes and SPDM sessions end (R490, R492). -/
def State.takeoverApply (s : State) : State :=
  match s.takeover with
  | none => s
  | some e =>
    let f := s.active
    let online := s.fw.online
    let s1 : State := { s with active := e, takeover := none }
    let s2 := (List.range 4).foldl (fun s c => (s.setCore (coreNo f c) {}).declareDead (aidCore (coreNo f c))) s1
    let s3 := (s2.modQuoin f (fun _ => { passed := true })).modQuoin e (fun q => { q with handover := false, missRun := 0 })
    let s4 := match online with
      | some n =>
        let s4 := ((s3.modFw (fun w => { w with run := n, online := none })).fwStatus).warmUp f
        (match (s4.fwSlot n).img with
        | some i => (s4.warmUp e).startCore (coreNo e 0) (bootCore (s4.codeWindow + slotOff n + 0x1000 + i.entry.toNat))
        | none => s4)
      | none => s3
    let s5 := (s4.quoinsAll.foldl (fun s q => s.setFld (aQnOf q 0x30008) 24 8 (satAdd 8 (s.fld (aQnOf q 0x30008) 24 8) 1)) s4).latchLine e 12
    let s6 := s5.fw.mail.foldl (fun s m => s.mailEnd m.1 0x52) s5
    (s6.modFw (fun w => { w with spdm := false })).setFld 0x2C000 8 2 3

/-- Every block's window. -/
def allWins (b : Build) : List Win :=
  [.co, .ft, .ml, .ld, .sp] ++ (buildCrus b).map .cr ++ (buildKeys b).map .ks ++ ((List.range 8).filter (fun g => hasGt b g)).map .gt

/-- Step 3 of R495: the journal is replayed, every block rearmed, and record 0x0050 written. -/
def State.takeoverEnd (s : State) (former : Nat) : State :=
  let s1 := s.journalReplay
  let s2 := (allWins s.build).foldl (fun s w => s.rearm w) s1
  s2.mark 0x0050 (unitQuoin s.active) former 0 s.course 0

end Sys2Proof.Machine
end

