-- ==== Sys2Proof/Machine/Faults.lean ====
section
/-! DEFINITION. The fault rows (chapter 22): events and forced events (R500 to R507), FAULT_N (R508), chill and temperature (R510 to
R512), units out of service (R514, R517), and the mark-log rows (R528, R529). -/

namespace Sys2Proof.Machine

open Sys2Proof

/-! ## Units out of service (R517) -/

/-- An E-die lost to an ACCESS_DEAD: its two gates go down, its ladles out of service, and an active quoin hands over. -/
def State.edieDown (s : State) (e : Nat) : State :=
  let s1 := [2 * e, 2 * e + 1].foldl (fun s g => if (s.gate g).up then s.headDown g else s) s
  let s2 := (List.range 16).foldl (fun s i => s.ladleOut (16 * e + i)) s1
  if s.active = e then s2.modQuoin e (fun q => { q with handover := true }) else s2

/-- What keystone k had not performed ends (R365, R366, R514): writes and write-backs sent to it have one of their two results, and it
answers nothing more. -/
def State.ksStop (s : State) (k : Nat) : State :=
  let x := s.ks k
  let ms := s.net.filter (fun m => isReqKind m.kind && m.home == k) ++ x.queue ++ x.retry ++ (x.txns.filter (·.kind == .client)).map (·.req)
  let s1 := ms.foldl (fun s m =>
    let s0 := if m.kind == .evc then s else s.deadWrite m
    if (m.kind == .wbd || m.kind == .wbk || m.kind == .evc) && isCruAid m.aid then s0.cruWbCmp m.aid m.line else s0) s
  let s2 := s1.modKs k (fun x =>
    { x with stopped := true, txns := [], jobs := [], queue := [], retry := [], resv := [], rdq := [], wrq := [],
             sweep := [], nextSweep := [], sweeping := false, release := [] })
  { s2 with early := s2.early.filter (fun m => m.home != k), net := s2.net.filter (fun m => m.home != k || !(isReqKind m.kind || m.kind == .snpAck || m.kind == .snpData || m.kind == .tagR)) }

/-- ACCESS_DEAD takes its target out of service (R517); a keystone stops, and leaves by the KS_OUT that the event itself raises. -/
def State.targetDown (s : State) (unit : Nat) : State :=
  if unit < 72 then
    if (s.cru unit).st = .failed ∨ (s.cru unit).st = .retired ∨ !hasCru s.build unit then s
    else (s.cruFail unit).modFc (fun f => { f with failReports := setIns f.failReports unit })
  else if 0x80 ≤ unit ∧ unit < 0xC0 then s.edieDown ((unit - 0x80) / 16)
  else if 0xC0 ≤ unit ∧ unit < 0xD0 then s.edieDown ((unit - 0xC0) / 4)
  else if 0x200 ≤ unit ∧ unit < 0x218 then s.ksStop (unit - 0x200)
  else if 0x220 ≤ unit ∧ unit < 0x228 then s.edieDown ((unit - 0x220) / 2)
  else if 0x240 ≤ unit ∧ unit < 0x3D0 then s.routerFail ((unit - 0x240) / 4)
  else if 0x3E0 ≤ unit ∧ unit < 0x3E4 then s.edieDown (unit - 0x3E0)
  else s

/-! ## Array errors -/

/-- An uncorrectable data error in the cache of crucible n (Table 14.3): an S copy is dropped, an X or L copy leaves with EvC, and both are
fetched again by the access that finds them gone; in a D copy the word is marked. -/
def State.cacheError (s : State) (n line : Nat) (w : Fin 8) : State :=
  match tblFind (s.cru n).cache line with
  | none => s
  | some x =>
    let s1 := s.bump (aCr n 0x4038) 16 16 1
    if x.st = .d then s1.modCru n (·.setLine line { x with poison := x.poison ||| BitVec.ofNat 8 (2 ^ w.val) })
    else s1.evictLine n line x false

/-- An uncorrectable data error in the hearth of keystone k (Table 14.7): a clean line is dropped, a dirty one is marked. -/
def State.hearthError (s : State) (k sl : Nat) : State :=
  match tblFind (s.ks k).hearth sl with
  | none => s
  | some h =>
    (s.bump (aKs k 0x800C) 16 16 1).modKs k (fun x =>
      { x with hearth := if h.dirty then tblSet x.hearth sl { h with poison := true } else tblDel x.hearth sl })

/-- What an array error does in the unit that its event names (R84, R337, R352, R515). A forced event changes nothing there (R503). An
error that its array corrects has no fault source: it comes with a number that no source has, and only its count moves (log entry 42). -/
def State.hwError (s : State) (ev : FaultEv) : State :=
  let n := ev.unit
  let k := ev.unit - 0x200
  let isCru := hasCru s.build n && !ev.forced
  let isKs := decide (0x200 ≤ ev.unit) && hasKs s.build k && !ev.forced
  match ev.err with
  | .none => s
  | .mould w => if isCru && ev.src == 1 then { s with mouldPoison := setIns s.mouldPoison (2 ^ 20 * n + w.val) } else s
  | .cacheWord line w => if isCru && ev.src == 2 then s.cacheError n line w else s
  | .hearthLine sl => if isKs && ev.src == 8 then s.hearthError k sl else s
  | .hearthWay i w =>
    if isKs && ev.src == 10 then
      s.modKs k (fun x => { x with hearth := x.hearth.filter (fun e => !(hearthSet e.1 == i.val && e.2.way == w.val)) })
    else s
  | .cacheCe => if isCru && !srcAssigned ev.src.val then s.bump (aCr n 0x4038) 0 16 1 else s
  | .hearthCe => if isKs && !srcAssigned ev.src.val then s.bump (aKs k 0x800C) 0 16 1 else s
  | .dirLine sl => if isKs && ev.src == 11 then (s.modKs k (fun x => { x with jobs := x.jobs ++ [⟨false, sl, .dirUe⟩] })).homeRun k else s
  | .dirRegion sl =>
    if isKs && ev.src == 11 then (s.modKs k (fun x => { x with jobs := x.jobs ++ [⟨true, sl / 64, .dirUe⟩] })).homeRun k else s

/-- Cokeben counts the HEARTH_TAG_LOST events of a keystone, and at the fourth since chip reset writes KS_HEARTH_CTRL.ENABLE := 0, which
is course-applied (R516). -/
def State.tagLost (s : State) (ev : FaultEv) : State :=
  let k := ev.unit - 0x200
  if ev.src = 10 && decide (0x200 ≤ ev.unit) && hasKs s.build k && !s.eventsLost ev then
    let s1 := s.modKs k (fun x => { x with tagLost := x.tagLost + 1 })
    if (s1.ks k).tagLost ≠ 4 then s1
    else
      let a := aKs k 0x8000
      if s1.tb.running then { s1 with rwcBuf := tblSet s1.rwcBuf a (setBits (tblGet s1.rwcBuf (s1.reg a) a) 0 1 0) }
      else (s1.setFld a 0 1 0).hearthApply k false
  else s

/-! ## Events -/

/-- What an event does, with the reactions and consequences that follow the collector's own handling (R499, R517). -/
def State.eventRun (s : State) (ev : FaultEv) (ctx : Nat) : State :=
  let s1 := s.raise ev ctx
  (if ev.src = 20 && !ev.forced && !s.eventsLost ev then s1.targetDown ev.unit else if ev.src = 10 then s1.tagLost ev else s1).blkCruRun

/-- FAULT_EVENT (R500, R504): `within` says that the event comes within 64 QCLK of another of
its source. Whether that one is still being handled, so that this one is lost, is a free choice (log entry 1). -/
def execFaultEvent (ev : FaultEv) (within : Bool) (s0 : State) : Host.Outcome State Fault Refusal :=
  .next (
    let s := s0.hwError ev
    if within then
      let (lost, s1) := s.takeBool
      if lost then s1 else s1.eventRun ev (2 ^ 32)
    else s.eventRun ev (2 ^ 32))

/-- FT_FORCE (R503): one forced event of each source whose bit is written 1, in rising order. -/
def State.ftForce (s : State) (r : Requester) (v : Word) : State :=
  if s.isFw r || r == .test then
    (List.range 45).foldl (fun s n =>
      if v.getLsbD n then s.eventRun { src := Fin.ofNat 64 n, unit := s.fld (aFt 0x28) 0 10, forced := true } (2 ^ 32) else s) s
  else s

/-- FT_FORCE (R503). -/
def execFtForce (r : Requester) (v : Word) (s : State) : Host.Outcome State Fault Refusal := .next (s.ftForce r v)

/-- CLEAR_FIRST (R505). -/
def State.clearFirst (s : State) (r : Requester) : State :=
  if s.isFw r then (s.setReg64 (aFt 0x10) 0).setReg64 (aFt 0x18) 0 else s

/-- CLEAR_FIRST (R505). -/
def execClearFirst (r : Requester) (s : State) : Host.Outcome State Fault Refusal := .next (s.clearFirst r)

/-- FT_Q_HEAD (Table 22.8): a write below the current value or above FT_Q_TAIL is ignored. -/
def State.ftQHead (s : State) (r : Requester) (v : Word) : State :=
  if s.isFw r && s.reg64 (aFt 0x38) ≤ v.toNat && v.toNat ≤ s.reg64 (aFt 0x30) then (s.setReg64 (aFt 0x38) v.toNat).note .ft else s

/-- FT_Q_HEAD (Table 22.8). -/
def execFtQHead (r : Requester) (v : Word) (s : State) : Host.Outcome State Fault Refusal := .next (s.ftQHead r v)

/-- HELD_EVENT_ENTRY (R507): the first held event enters the queue. -/
def execHeldEventEntry (s : State) : Host.Outcome State Fault Refusal := .next (((s.heldIn 1).note .ft).note .ld)

/-! ## FAULT_N (R508) -/

/-- FT_PIN_HOLD: a control core of the active quoin sets HOLD; only the SMBus port and the test port clear it. -/
def State.ftPin (s : State) (r : Requester) (p : Page) (d : Reg) : State :=
  let v := pageWrite p (s.reg (aFt 8)) d 1
  if r == .smbus || r == .test || (s.isFw r && v.getLsbD 0) then (s.setReg (aFt 8) v).note .ft else s

/-- FT_PIN_HOLD. -/
def execFtPinHold (r : Requester) (p : Page) (d : Reg) (s : State) : Host.Outcome State Fault Refusal := .next (s.ftPin r p d)

/-- FAULT_N_PULSE_END. -/
def execFaultNPulseEnd (s : State) : Host.Outcome State Fault Refusal := .next ((s.modFc (fun f => { f with pulse := false })).note .ft)

/-! ## Chill and temperature (R510 to R512) -/

/-- A chill cause appears (R510): chill is in effect, and CLEAN := 8. Charges it slows are excused (R230). -/
def State.chillEnter (s : State) : State :=
  ((s.modFc (fun f => { f with chill := true, cleanLeft := 8, dirtyCourse := true })).excuseAll).note .ft

/-- PWR_WARN (R510). -/
def execPwrWarn (s : State) : Host.Outcome State Fault Refusal :=
  .next (if s.fc.warn || !s.pinsLive then s else ((s.modFc (fun f => { f with warn := true })).raiseAt 37 unitSet).chillEnter)

/-- PWR_WARN_N_HIGH (R510, R511): this cause is no longer present. -/
def execPwrWarnNHigh (s : State) : Host.Outcome State Fault Refusal :=
  .next (if s.pinsLive then s.modFc (fun f => { f with warn := false }) else s)

/-- THERM_HIGH (R512): a die exceeds 105 degrees; UNIT 0x3FF, with the site in PARAM (Table 22.4). -/
def execThermHigh (x : Fin 100) (s : State) : Host.Outcome State Fault Refusal :=
  .next (
    if !hasSite s.build x.val || s.fc.hot.contains x.val then s
    else ((s.modFc (fun f => { f with therm := true, hot := setIns f.hot x.val })).raiseAt 38 unitSet x.val).chillEnter)

/-- THERM_TRIP (R512): its CHIP reaction begins a chip reset, which CHIP_RESET carries out. -/
def execThermTrip (x : Fin 100) (s : State) : Host.Outcome State Fault Refusal :=
  .next (
    if !hasSite s.build x.val then s
    else (s.modFc (fun f => { f with hot := setIns f.hot x.val })).raiseAt 39 unitSet x.val)

/-- THERM_CLEAR (R512): every die reads below 100 degrees; the cause ends, and a set held in reset for it goes on to bring-up
with no chill but that of a supply that still warns. -/
def execThermClear (s : State) : Host.Outcome State Fault Refusal :=
  .next (
    let s1 := s.modFc (fun f => { f with therm := false, hot := [] })
    (if s1.rst.phase = .thermHold then
      (State.modFc { s1 with rst := { s1.rst with phase := .none } } (fun f =>
        { f with chill := f.warn, dirtyCourse := f.warn, cleanLeft := if f.warn then 8 else 0 }))
     else s1).note .ft)

/-- The end of one course in chill (R511): whether a cause was present in it, then the count. -/
def State.chillTick (s : State) : State :=
  let present := s.fc.warn || s.fc.therm
  let s1 :=
    if !s.fc.chill then s
    else if s.fc.dirtyCourse || present then s.modFc (fun f => { f with cleanLeft := 8 })
    else s.modFc (fun f => { f with cleanLeft := f.cleanLeft - 1, chill := f.cleanLeft != 1 && f.cleanLeft != 0 })
  (s1.modFc (fun f => { f with dirtyCourse := present })).note .ft

/-- CHILL_END (R511): at step 4 of the boundary that is due, the last clean course has ended. -/
def execChillEnd (s : State) : Host.Outcome State Fault Refusal :=
  .next (
    if s.tb.due && !s.inReset && s.fc.chill && s.fc.cleanLeft == 1 && !s.fc.dirtyCourse && !s.fc.warn && !s.fc.therm then s.chillTick else s)

/-- KS_OUT (R514). -/
def execKsOut (k : Fin 24) (s : State) : Host.Outcome State Fault Refusal := .next (s.keyOut k.val)

/-- Step 1 of a boundary: keystones out of service clear their bit of QN_KEYS_PRESENT (R514). -/
def State.ksOutApply (s : State) : State :=
  s.ksOut.foldl (fun s k => ((s.setFld 0x24004 k 1 0).ksStop k).modKs k (fun x => { x with out := true })) { s with ksOut := [] }

/-! ## The mark log (R528, R529) -/

/-- Who writes ML_CTRL and ML_MARK: control cores of the active quoin and the SMBus port (R531). -/
def State.mlWriter (s : State) (r : Requester) : Bool := s.isFw r || r == .smbus || r == .test

/-- FREEZE (R528). -/
def execFreeze (r : Requester) (s : State) : Host.Outcome State Fault Refusal := .next (if s.mlWriter r then s.mlFreeze else s)

/-- THAW (R528). -/
def execThaw (r : Requester) (s : State) : Host.Outcome State Fault Refusal := .next (if s.mlWriter r then s.mlThaw else s)

/-- CLEAR (R529). -/
def execClear (r : Requester) (s : State) : Host.Outcome State Fault Refusal := .next (if s.mlWriter r then s.mlClear else s)

/-- Step 4 of a boundary at a frozen log (R528): the freeze count, and the thaw at FREEZE_LIMIT. -/
def State.freezeTick (s : State) : State :=
  if s.ml.frozen then
    let s1 := s.modMl (fun m => { m with frozenCourses := m.frozenCourses + 1 })
    if s1.freezeLimit ≤ s1.ml.frozenCourses then s1.mlThaw else s1
  else s

/-- AUTO_THAW (R528): at step 4 of the boundary that is due. -/
def execAutoThaw (s : State) : Host.Outcome State Fault Refusal :=
  .next (if s.tb.due && !s.inReset && s.ml.frozen && s.freezeLimit ≤ s.ml.frozenCourses + 1 then s.mlThaw else s)

end Sys2Proof.Machine
end

