-- ==== Sys2Proof/Machine/Timebase.lean ====
section
/-! DEFINITION. The timebase (chapter 03): frame edges (R49, R58, R61), TOD_IN messages and corrections (R53 to R57, Table 3.2), start
(R58 to R60), holdover and re-lock (R61 to R66). A boundary edge makes the boundary step due; COURSE_BOUNDARY takes it. -/

namespace Sys2Proof.Machine

open Sys2Proof

/-- CO_DIVISOR.N in effect. -/
def State.divN (s : State) : Nat := s.fld (aCo 4) 0 12

/-- Two's complement on 32 bits, saturating (CO_TOD_ERROR). -/
def sat32 (e : Int) : Reg := BitVec.ofInt 32 (max (-(2 ^ 31)) (min (2 ^ 31 - 1) e))

/-- The two parameters of a 64-bit value in a mark-log record (Table 23.1). -/
def low32 (e : Int) : Nat := (e % 2 ^ 32).toNat
def high32 (e : Int) : Nat := (e / 2 ^ 32 % 2 ^ 32).toNat

/-- Courses run: from the first boundary, or from the write of ENABLE of a free start (R61). -/
def State.coursesRun (s : State) : Bool := s.tb.running || s.tb.freeRun

/-! ## Corrections (R57, Table 3.2) -/

/-- A half-rate correction in progress ends, with its end record. -/
def State.halfEnd (s : State) : State :=
  match s.tb.corr with
  | .halfRate _ => (s.modTb (fun t => { t with corr := .none })).mark 0x0012 unitSet 0 0 0 0
  | _ => s

/-- A valid message that tags the edge just counted: its error, and the row of Table 3.2 it takes. -/
def State.tagEdge (s : State) (t : Nat) : State :=
  let e : Int := (t : Int) - (s.tb.edgeTime : Int)
  let l : Int := s.fld (aCo 0x30) 0 20
  let prev := s.tb.prevErr
  let s1 := s.modTb (fun b => { b with todError := sat32 e, prevErr := some e })
  let again (ok : Int → Bool) : Bool := match prev with | some p => ok p && decide (max e p - min e p ≤ l) | none => false
  if !s.tb.timeValid then
    (s1.modTb (fun b => { b with edgeTime := t, timeValid := true, corr := .none, fwdStep := none })).note .co
  else if -l ≤ e ∧ e ≤ l then
    s1.halfEnd.modTb (fun b => { b with corr := .slew 8000 (e.tdiv 8000) (e - 8000 * e.tdiv 8000) })
  else if l < e ∧ again (fun p => l < p) = true then
    (s1.halfEnd.modTb (fun b => { b with corr := .none, fwdStep := some e.toNat })).mark 0x0010 unitSet (low32 e) (high32 e) 0 0
  else if e < -l ∧ again (fun p => p < -l) = true then
    let s2 := match s1.tb.corr with
      | .halfRate _ => s1
      | _ => s1.mark 0x0011 unitSet (low32 e) (high32 e) 0 0
    s2.modTb (fun b => { b with corr := .halfRate (-e).toNat })
  else s1

/-! ## Counted edges (R50, R56, R58, R60) -/

/-- A frame edge counts: the boundary of a course, or the first boundary of the timebase, falls due. DESIGN CHOICE (log entry 99): the
first boundary of a free start, one course length after the write, gives CO_COURSE the value 0. -/
def State.countFrame (s : State) : State :=
  let b := s.tb
  if b.running || b.due then
    s.modTb (fun t => { t with frame := t.frame + 1, due := t.due || b.curN ≤ b.frame, dueTime := if t.due then t.dueTime else t.edgeTime })
  else if b.starting && b.freeRun then
    if b.curN ≤ b.frame then s.modTb (fun t => { t with frame := 0, due := true, dueTime := t.edgeTime, firstDue := some 0 })
    else s.modTb (fun t => { t with frame := t.frame + 1 })
  else if b.starting && b.frameLock && b.timeValid then
    let len := (s.divN + 1) * s.period
    if b.edgeTime % len = 0 then
      s.modTb (fun t => { t with frame := 0, due := true, dueTime := t.edgeTime, firstDue := some (b.edgeTime / len) })
    else s
  else s

/-- A frame edge at oscillator time `osc`, real or generated (R56). A re-lock edge carries its own calendar time and no correction. The
messages whose last bit came by `osc` tag this edge; a later one waits for the first edge that follows it, also when this edge is counted
late (R53, R61). -/
def State.countEdge (s : State) (osc : Nat) (cal : Option Nat) : State :=
  let (adv, corr) := edgeAdvance s.period s.tb.corr
  let s1 := s.modTb (fun b =>
    { b with lastEdge := some osc, lost := false, now := max b.now osc, tagged := s.tb.tagged.filter (fun m => osc < m.1),
             edgeTime := cal.getD (b.edgeTime + adv), corr := if cal.isSome then b.corr else corr })
  ((s.tb.tagged.filter (fun m => m.1 ≤ osc)).foldl (fun s m => s.tagEdge m.2) s1).countFrame

/-- The edge to come is the one on which the course in progress ends. -/
def State.lastFrame (s : State) : Bool := s.coursesRun && !s.tb.due && s.tb.curN ≤ s.tb.frame

/-! ## Holdover and re-lock (R61 to R66) -/

/-- The set enters holdover (R61, R63). -/
def State.enterHoldover (s : State) : State :=
  ((s.modTb (fun b =>
    { b with holdover := true, frameLock := false, relocking := false, clean := 0, relockClean := 0, armed := false, genPassed := none,
             lastReal := none, holdCourses := 0 })).note .co).raiseAt 36 unitSet

/-- An armed re-lock is abandoned; a course that waits for its real edge ends on its generated edge, now (R64). -/
def State.relockDrop (s : State) : State :=
  let s1 := s.modTb (fun b => { b with armed := false, relockClean := 0, genPassed := none })
  match s.tb.genPassed, s.tb.lastEdge with
  | some _, some e => s1.countEdge (e + s.period) none
  | _, _ => s1

/-- The real edge that ends holdover (R64 steps 2 and 3). -/
def State.relock (s : State) (t : Nat) : State :=
  let e := s.tb.lastEdge.getD t
  let was := s.tb.holdCourses
  let s1 := s.modTb (fun b =>
    { b with holdover := false, relocking := false, armed := false, genPassed := none, relockClean := 0, holdCourses := 0, lastReal := none,
             clean := 64, frameLock := true })
  ((s1.mark 0x0013 unitSet was 0 0 0).note .co).countEdge t (some (s.tb.edgeTime + (t - e)))

/-- Two edges one frame period apart within 1 % (R58, R64). -/
def cleanGap (period a b : Nat) : Bool :=
  let d := b - a
  a ≤ b && 100 * (max d period - min d period) ≤ period

/-- A FRAME_IN edge in holdover is observed (R64). An edge that breaks the 1 % rule while a re-lock is armed abandons it and counts for
nothing; at any other time the first of 64 clean edges is the one that opens the count (log entry 35). -/
def State.observe (s : State) (t : Nat) : State :=
  let ok := match s.tb.lastReal with | some r => cleanGap s.period r t | none => false
  let passed := s.tb.genPassed.isSome || (s.lastFrame && (match s.tb.lastEdge with | some e => e + s.period ≤ t | none => false))
  let s1 := s.modTb (fun b => { b with relocking := true, lastReal := some t, now := max b.now t })
  if s.tb.armed then
    if !ok then s1.relockDrop
    else if passed then s1.relock t
    else s1
  else
    let n := if ok then s.tb.relockClean + 1 else 1
    s1.modTb (fun b => { b with relockClean := n, armed := 64 ≤ n })

/-- A FRAME_IN edge outside holdover: accepted within half a period of its prediction, or counted as GLITCH (R49); it counts toward
FRAME_LOCK (R58). The first of 64 clean edges is the one that opens the count (log entry 35). -/
def State.takeEdge (s : State) (t : Nat) : State :=
  let p := s.period
  let pred := s.tb.lastEdge.map (· + p)
  let inWin := s.tb.lost || (match pred with | some q => 2 * (max t q - min t q) ≤ p | none => true)
  if !inWin then s.modTb (fun b => { b with glitch := satAdd 16 b.glitch 1, now := max b.now t })
  else
    let ok := !s.tb.lost && (match s.tb.lastEdge with | some e => cleanGap p e t | none => false)
    let n := if ok then s.tb.clean + 1 else 1
    (s.modTb (fun b => { b with clean := n, frameLock := b.frameLock || 64 ≤ n })).countEdge t none

/-- FRAME_EDGE (R49, R64, R66): a rising edge of FRAME_IN at oscillator time t. -/
def execFrameEdge (t : Nat) (s : State) : Host.Outcome State Fault Refusal :=
  .next (
    if t < s.tb.now || !s.pinsLive then s
    else if s.fld (aCo 0) 1 1 = 1 then s.modTb (fun b => { b with now := t })
    else if s.tb.holdover then s.observe t
    else s.takeEdge t)

/-- FRAME_EDGE_MISSED (R61): the window of the predicted edge has ended. -/
def execFrameEdgeMissed (s : State) : Host.Outcome State Fault Refusal :=
  .next (
    match s.tb.lastEdge with
    | none => s
    | some e =>
      if s.tb.holdover || s.tb.lost then s
      else
        let q := e + s.period
        let s1 := s.modTb (fun b => { b with now := max b.now (q + s.period / 2) })
        if s.coursesRun then s1.enterHoldover.countEdge q none
        else s1.modTb (fun b => { b with frameLock := false, clean := 0, lost := true }))

/-- GENERATED_EDGE (R61, R64): one period after the previous edge. A boundary edge of an armed re-lock waits for the real edge. -/
def execGeneratedEdge (s : State) : Host.Outcome State Fault Refusal :=
  .next (
    match s.tb.lastEdge with
    | none => s
    | some e =>
      if !s.tb.holdover || s.tb.genPassed.isSome then s
      else
        let q := e + s.period
        if s.tb.armed && s.lastFrame then
          s.modTb (fun b => { b with now := max b.now q, genPassed := some (b.edgeTime + (edgeAdvance s.period b.corr).1) })
        else s.countEdge q none)

/-- RELOCK_ABANDON (R64): no real edge within one period after the generated boundary time. -/
def execRelockAbandon (s : State) : Host.Outcome State Fault Refusal :=
  .next (
    match s.tb.lastEdge with
    | some e =>
      if s.tb.armed && s.tb.genPassed.isSome then
        (s.modTb (fun b => { b with now := max b.now (e + 2 * s.period) })).relockDrop
      else s
    | none => s)

/-! ## TOD_IN (R53 to R55) -/

/-- CRC-16 with polynomial 0x1021, most significant bit first (Table 3.1). -/
def crc16Bits : Nat → Nat → Nat
  | 0, c => c
  | n + 1, c => crc16Bits n (if 2 ^ 15 ≤ c then ((2 * c) % 2 ^ 16) ^^^ 0x1021 else 2 * c)

def crc16 (bs : List Byte) : Nat := bs.foldl (fun c b => crc16Bits 8 (c ^^^ (b.toNat * 256))) 0xFFFF

/-- A message is valid (R54); its SYNC and TYPE are right. -/
def todValid (bs : List Byte) : Bool :=
  bs.length == 16 && crc16 (bs.take 14) == leNat ((bs.drop 14).take 2) && leNat ((bs.drop 8).take 4) < 10 ^ 9 && (bs.getD 12 0).toNat % 16 < 15

/-- The calendar time a message names. DESIGN CHOICE (log entry 99): a time of more than 64 bits is kept whole, and CO_TIME shows its low
64 bits. -/
def todTime (bs : List Byte) : Nat := leNat ((bs.drop 2).take 6) * 10 ^ 9 + leNat ((bs.drop 8).take 4)

/-- TOD_MESSAGE (R53, R54): the last bit of a message at oscillator time t. -/
def execTodMessage (bytes : List Byte) (t : Nat) (s : State) : Host.Outcome State Fault Refusal :=
  .next (
    if t < s.tb.now || !s.pinsLive then s
    else
      let s1 := s.modTb (fun b => { b with now := t })
      if bytes.getD 0 0 ≠ 0x5A ∨ bytes.getD 1 0 ≠ 1 then s1
      else if todValid bytes then
        (s1.modTb (fun b => { b with tagged := b.tagged ++ [(t, todTime bytes)], lastTod := t, todMissing := false })).note .co
      else s1.modTb (fun b => { b with todErr := satAdd 16 b.todErr 1 }))

/-- HALF_RATE_END (Table 3.2): the error has been removed. -/
def execHalfRateEnd (s : State) : Host.Outcome State Fault Refusal :=
  .next (if s.tb.corr = .halfRate 0 then s.halfEnd else s)

/-- TOD_MISSING (R55): 3 s without a valid message. -/
def execTodMissing (s : State) : Host.Outcome State Fault Refusal :=
  .next ((s.modTb (fun b => { b with todMissing := true, now := max b.now (b.lastTod + 3 * 10 ^ 9) })).note .co)

/-! ## CO_CTRL (R58 to R60, R66) -/

/-- ENABLE becomes 1: the set waits for lock and time, or starts in holdover. -/
def State.tbStart (s : State) : State :=
  let s1 := s.modTb (fun b => { b with starting := true, curN := s.divN, nextN := s.divN })
  if s.fld (aCo 0) 2 1 = 1 then
    (s1.modTb (fun b => { b with freeRun := true, frame := 0, edgeTime := s.coTime, lastEdge := some b.now })).enterHoldover
  else s1

/-- HOLD_FORCE becomes 1 (R66). -/
def State.forceHold (s : State) : State :=
  if !s.coursesRun then s
  else if s.tb.holdover then (s.modTb (fun b => { b with relockClean := 0, lastReal := none })).relockDrop
  else s.enterHoldover

/-- A write of CO_CTRL through a page: a control core of the active quoin writes it (R568), and ENABLE stays 1 once the timebase has
started (R59). DESIGN CHOICE (log entry 99): ENABLE written with 1 starts the set where it was 0 before; the write of FREE_START beside an
ENABLE that is 1 already, while a start waits for lock and time, starts nothing. -/
def State.tbWrite (s : State) (r : Requester) (p : Page) (d : Reg) : State :=
  if !s.isFw r then s
  else
    let old := s.reg (aCo 0)
    let v := pageWrite p old d 7
    let on := s.tb.starting || s.tb.running
    let s1 := s.setReg (aCo 0) (if on then v ||| 1 else v)
    let s2 := if !old.getLsbD 0 && v.getLsbD 0 && !on then s1.tbStart else s1
    if !old.getLsbD 1 && v.getLsbD 1 then s2.forceHold
    else if old.getLsbD 1 && !v.getLsbD 1 then s2.modTb (fun b => { b with relockClean := 0, lastReal := none })
    else s2

/-- TIMEBASE_ENABLE (R58). -/
def execTimebaseEnable (r : Requester) (p : Page) (d : Reg) (s : State) : Host.Outcome State Fault Refusal := .next (s.tbWrite r p d)

/-- FREE_START (R60). -/
def execFreeStart (r : Requester) (p : Page) (d : Reg) (s : State) : Host.Outcome State Fault Refusal := .next (s.tbWrite r p d)

/-- HOLD_FORCE (R66). -/
def execHoldForce (r : Requester) (p : Page) (d : Reg) (s : State) : Host.Outcome State Fault Refusal := .next (s.tbWrite r p d)

end Sys2Proof.Machine
end

