-- ==== Sys2Proof/Machine/Reset.lean ====
section
/-! DEFINITION. The resets of the set (chapter 25): PORST_N (R546, R547), the phases of a chip reset (R552 to R555), and the shutdown on
PWR_FAIL_N (R562, R563). -/

namespace Sys2Proof.Machine

open Sys2Proof

def State.modRst (s : State) (f : Rst → Rst) : State := { s with rst := f s.rst }

/-! ## PORST_N (R546, R547) -/

/-- The set held in reset by PORST_N: every register, counter, store and tracker is cleared. What the stacks hold stays with them (R551),
as do the levels of PERST_N and the TAPs; presence is debounced anew from PORST_N rising (R579). -/
def State.powerDown (s : State) : State :=
  { State.reset with
    build := s.build, pending := s.pending, stack := s.stack, stackPoison := s.stackPoison, tags := s.tags, free := s.free, taps := s.taps, trstLow := s.trstLow, pinsTaken := s.pinsTaken
    gates := s.gates.map (fun e => (e.1, { perst := e.2.perst }))
    rst := { phase := .porst, mark := s.rst.mark } }

/-- PORST_N_LOW (R547). -/
def execPorstNLow (s : State) : Host.Outcome State Fault Refusal := .next s.powerDown

/-- PORST_N_RISE (R547): bring-up begins. -/
def execPorstNRise (s : State) : Host.Outcome State Fault Refusal :=
  .next (if s.rst.phase = .porst then s.modRst (fun r => { r with phase := .none }) else s)

/-! ## The Reset phase (R552, R553) -/

/-- CAUSE of QN_RESET_CAUSE (Table 25.7), and SOURCE for CAUSE 2. -/
def causeCode : ResetCause → Nat
  | .command => 1 | .chip _ => 2 | .thermTrip => 3 | .noWarmQuoin => 4 | .pwrFail => 5
def causeSource : ResetCause → Nat
  | .chip n => n.val | _ => 0

/-- Registers that a chip reset keeps (Table 25.4): the mark log's, the slot registers, the queue registers that the journal restores at
step 8, QN_RESET_CAUSE, QN_BRINGUP, QN_PLACEMENT, QN_COH_REGION, and every quoin's QN_FW_STATUS. -/
def keptReg (a : Nat) : Bool :=
  if 2 ^ 32 ≤ a then a % 2 ^ 32 == 0x30018
  else match winOf a with
    | some (.ml, _) => true
    | some (.gt _, o) => o == 0x8004 || o == 0x8008 || (0x40000 ≤ o && o < 0x80000)
    | some (.qn, o) => o == 0x10 || o == 0x14 || o == 0x38004 || o == 0x38008 || o == 0x24008 || o == 0x28000 || o == 0x30018
    | _ => false

/-- What a keystone keeps: its directory, its hearth, and the sweeps that cover host domains (R354, R553). -/
def Ks.afterReset (x : Ks) : Ks :=
  { dir := x.dir, regions := x.regions, hearth := x.hearth, evq := x.evq, hst := .enabled, out := x.out, rawCheck := x.rawCheck,
    jobs := x.jobs.filter (fun j => j.why != .evict),
    sweep := x.sweep.filter isHostAid, nextSweep := x.nextSweep.filter isHostAid,
    sweeping := (x.sweep ++ x.nextSweep).any isHostAid, release := x.release }

/-- What a gate keeps (R555): its link, its tags, quarantined, its IDE streams, its slot sequence and the requests to be sent again. -/
def Gate.afterReset (x : Gate) : Gate :=
  { x with prsntCount := 0, attnCount := 0, seenPrsnt := 0, seenAttn := 0,
           tags := x.tags.map (fun e => if e.2.left.isNone then (e.1, { e.2 with left := some 64 }) else e) }

/-- The Reset phase: every unit in its reset state, but for Table 25.4. -/
def State.resetPhase (s : State) (cause src : Nat) : State :=
  let hot := s.fc.warn || s.fc.therm
  let s1 : State :=
    { State.reset with
      build := s.build, pending := s.pending, tags := s.tags, free := s.free, taps := s.taps, trstLow := s.trstLow, pinsTaken := s.pinsTaken
      regs := s.regs.filter (fun e => keptReg e.1)
      reqs := s.reqs.map (fun e => (e.1, { cursor := e.2.cursor }))
      irqSent := s.irqSent, sumLast := s.sumLast.filter (fun e => e.1 == aMl 0)
      tb := { now := s.tb.now }
      fc := { warn := s.fc.warn, therm := s.fc.therm, hot := s.fc.hot, chill := hot, dirtyCourse := hot, cleanLeft := if hot then 8 else 0,
              alive := s.fc.alive }
      ml := s.ml
      code := s.code.filter (fun c => c.1 % 2 ^ 23 < 0x500000)
      codePoison := s.codePoison.filter (fun w => w % 2 ^ 20 < 0x500000 / 8)
      kss := s.kss.map (fun e => (e.1, e.2.afterReset))
      stack := s.stack, stackPoison := s.stackPoison, unspec := s.unspec
      flasks := s.flasks, flaskPend := s.flaskPend, streams := s.streams, pours := s.pours, extents := s.extents, sanitizing := s.sanitizing
      queues := s.queues.map (fun e => (e.1, { e.2 with retries := 0, reread := false, ignored := 0, torn := 0, reads := [] }))
      hds := s.hds
      ladles := s.ladles.map (fun e => (e.1, { descs := e.2.descs.map (fun d => { d with reqs := [], lastRead := none }) }))
      gates := s.gates.map (fun e => (e.1, e.2.afterReset))
      fw := { slot1 := s.fw.slot1, slot2 := s.fw.slot2, run := s.fw.run }
      dead := s.dead.filter isHostAid, attached := s.attached
      rst := { phase := if s.fc.hot.isEmpty || cause != 3 then .none else .thermHold, afterChip := true, since := s.tb.now, mark := s.rst.mark,
               deadDrain := s.rst.deadDrain, lastBoundary := s.rst.lastBoundary, withheld := true, badDies := s.rst.badDies } }
  let s2 := (List.range 4).foldl (fun t e => t.setFld (aQnOf e 0x30008) 24 8 (s.fld (aQnOf e 0x30008) 24 8)) s1
  let s3 := s2.kss.foldl (fun t e => if e.2.out then t.setFld 0x24004 e.1 1 0 else t) s2
  s3.setReg 0x38004 (BitVec.ofNat 32 (satAdd 8 (s.fld 0x38004 24 8) 1 * 2 ^ 24 + src * 2 ^ 8 + cause))

/-! ## Shutdown (Table 25.5) -/

/-- Step 2: lines that host domains own are poisoned, and host copies leave the directory. -/
def State.dropHosts (s : State) (k : Nat) : State :=
  let hostBits : BitVec 25 := 0xFFFF
  let s1 := (s.ks k).dir.foldl (fun s e =>
    match e.2.st with
    | .he o => if isHostAid o then s.poisonLine k e.1 else s
    | .hs r vec =>
      let vec1 := vec &&& ~~~hostBits
      if vec1 = 0 then s.modKs k (·.freeDir e.1) else s.modKs k (fun x => x.setDir e.1 e.2.line e.2.way (.hs r vec1))) s
  s1.modKs k (fun x =>
    { x with regions := (x.regions.map (fun e => (e.1, { e.2 with vec := e.2.vec &&& ~~~hostBits }))).filter (fun e => e.2.vec != 0) })

/-- Step 3: the hearth's dirty lines and its eviction buffer reach the stack. -/
def State.hearthOut (s : State) (k : Nat) : State :=
  let x := s.ks k
  let s1 := (x.hearth.filter (fun e => e.2.dirty)).foldl (fun s e => s.stackWrite k e.1 e.2.data e.2.poison) s
  let s2 := x.evq.foldl (fun s e => s.stackWrite k e.1 e.2.1 e.2.2) s1
  s2.modKs k (fun x => { x with hearth := [], evq := [] })

/-- Step 4: the tables that stand in the stacks with the shutdown mark. -/
def State.kept (s : State) : Kept :=
  { extents := s.extents, sanitizing := s.sanitizing, unspec := s.unspec, flasks := s.flasks, streams := s.streams, pours := s.pours
    queues := s.queues, notices := s.hds.map (fun e => (e.1, (e.2.nqTail, e.2.nqHead, e.2.notices, e.2.lost)))
    cfg := s.regs.filter (fun e => match winOf e.1 with | some (.gt _, o) => 0x40000 ≤ o && o < 0x80000 | _ => false)
    placement := s.reg 0x24008, cohRegion := s.reg 0x28000, lastBoundary := s.rst.lastBoundary }

/-- Steps 2 to 5 of Table 25.5, after the Drain phase. When the supply has recovered by then, a chip reset follows (R563). -/
def State.shutdown (s : State) : State :=
  let s1 := s.keysUp.foldl (fun s k => (s.dropHosts k).hearthOut k) s
  let s2 := s1.modRst (fun r => { r with mark := some s1.kept, phase := .shutdown })
  if s.rst.recovered then s2.resetPhase 5 0 else s2

/-! ## Stop and Drain (Table 25.3) -/

/-- A crucible takes part in the Drain phase. -/
def Cru.drains (c : Cru) : Bool :=
  !(c.st == .failed || c.st == .retired || c.st == .standby || c.st == .off || c.st == .selftest) &&
  !(c.st == .resetting && (c.stopBy == .resetFailed || c.stopBy == .invalidateFailed))

/-- A crucible has finished the Drain phase: its stores have completed and its cache holds nothing. -/
def State.drained (s : State) (n : Nat) : Bool :=
  let c := s.cru n
  !(c.st == .stopping && c.stopBy == .drain) || (s.storesDone n && c.cache.isEmpty && c.wb.isEmpty)

/-- The CXL.mem requests of host domains without a response (R555). -/
def State.openHostReqs (s : State) : List Msg :=
  (s.net ++ s.kss.flatMap (fun e => (e.2.txns.filter (·.kind == .client)).map (·.req) ++ e.2.queue ++ e.2.retry)).filter
    (fun m => isHostAid m.aid && isReqKind m.kind)

/-- The end of the Drain phase, when it has come: every crucible is drained or declared dead, and the sweeps for the dead ones have
ended. -/
def State.drainAdvance (s : State) : State :=
  match s.rst.phase with
  | .drain cause src =>
    let dead := s.rst.deadDrain
    if (buildCrus s.build).all (fun n => s.drained n || dead.contains n) &&
        s.kss.all (fun e => dead.all (fun n => !e.2.sweep.contains n && !e.2.nextSweep.contains n)) then
      (if s.rst.shutting then s.shutdown else s.resetPhase cause src)
    else s
  | _ => s

/-- Stop, and the beginning of Drain (Table 25.3). -/
def State.chipBegin (s : State) (cause src : Nat) (shutting : Bool) : State :=
  let s1 := s.openHostReqs.foldl (fun s m => s.modGate ((m.aid - 0x100) / 16) (fun x => { x with kept := x.kept ++ [m] })) s
  let s2 := s1.modRst (fun r =>
    { r with phase := .drain cause src, shutting := shutting, recovered := false, withheld := true, deadDrain := [] })
  let s3 : State := { s2 with ladles := s2.ladles.map (fun e => (e.1, { e.2 with opened := false })) }
  let ns := (buildCrus s3.build).filter (fun n => (s3.cru n).drains)
  (ns.foldl (fun s n =>
    ((s.modCru n (fun c => { c.discard with stopBy := .drain, held := [], standbyBusy := false, charge := none })).cruTo n .stopping).cruAdvance n) s3).drainAdvance

/-- Whether a cause of Table 25.7 is there. A command is the row CHIP_RESET_COMMAND, and cause 5 the row PWR_FAIL_RECOVER. -/
def State.causeThere (s : State) : ResetCause → Bool
  | .command => false
  | .chip n => s.fc.chip == some n.val && n != 39
  | .thermTrip => s.fc.chip == some 39
  | .noWarmQuoin => s.fc.hbLost && s.tb.due
  | .pwrFail => false

/-- CHIP_RESET (R545, R552): from its cause, or on with a Drain phase in progress. -/
def execChipReset (cause : ResetCause) (s : State) : Host.Outcome State Fault Refusal :=
  .next (
    if s.rst.phase = .none then
      (if s.causeThere cause then s.chipBegin (causeCode cause) (causeSource cause) false else s)
    else s.drainAdvance)

/-- CHIP_RESET_COMMAND (R565): KEY 0xC5 and CMD 1, from a control core of the active quoin or the SMBus port. -/
def State.resetCommand (s : State) (r : Requester) (d : Reg) : State :=
  if (s.isFw r || r == .smbus || r == .test) && bitsOf d 8 8 == 0xC5 && bitsOf d 0 4 == 1 && s.rst.phase == .none then s.chipBegin 1 0 false else s

def execChipResetCommand (r : Requester) (d : Reg) (s : State) : Host.Outcome State Fault Refusal := .next (s.resetCommand r d)

/-- DRAIN_TIMEOUT (Table 25.3). -/
def execDrainTimeout (n : Fin 72) (s : State) : Host.Outcome State Fault Refusal :=
  .next (
    match s.rst.phase with
    | .drain .. =>
      if s.drained n.val || s.rst.deadDrain.contains n.val || !hasCru s.build n.val then s
      else ((s.declareDead n.val).modRst (fun r => { r with deadDrain := setIns r.deadDrain n.val })).drainAdvance
    | _ => s)

/-- CHIP_RESET_LINK_TIMEOUT (R555). -/
def execChipResetLinkTimeout (s : State) : Host.Outcome State Fault Refusal :=
  .next (
    if s.rst.withheld && !s.rst.steps.contains 8 then
      (List.range 8).foldl (fun s g => if (s.gate g).up then (s.headDown g).modGate g (fun x => { x with kept := [] }) else s) s
    else s)

/-- PWR_FAIL (R562). -/
def execPwrFail (s : State) : Host.Outcome State Fault Refusal :=
  .next (
    if s.pinsTaken then s else
    match s.rst.phase with
    | .none => s.chipBegin 5 0 true
    | .drain .. => (s.modRst (fun r => { r with shutting := true, recovered := false })).drainAdvance
    | _ => s)

/-- PWR_FAIL_RECOVER (R563): the sequence completes, and a chip reset with cause 5 follows. -/
def execPwrFailRecover (s : State) : Host.Outcome State Fault Refusal :=
  .next (
    if s.pinsTaken then s else
    match s.rst.phase with
    | .shutdown => s.resetPhase 5 0
    | .drain .. => if s.rst.shutting then s.modRst (fun r => { r with recovered := true }) else s
    | _ => s)

end Sys2Proof.Machine
end

