-- ==== Sys2Proof/Machine/Bringup.lean ====
section
/-! DEFINITION. Bring-up (Table 25.2): when a step begins, and what each step does (R548 to R551, R556, R558, R559, R561). Steps 3 and 5
are the row BOOT. -/

namespace Sys2Proof.Machine

open Sys2Proof

/-- The steps that a step depends on (Table 25.2). -/
def stepNeeds : Nat → List Nat
  | 2 => [1] | 3 => [2] | 4 => [2] | 5 => [3] | 6 => [5] | 7 => [6] | 8 => [7] | 9 => [4, 8] | 10 => [8] | 11 => [10] | 12 => [8]
  | _ => []

/-! ## Step 1: the purge (R556) -/

/-- Each keystone sweeps its directory of crucible records. -/
def Ks.purge (x : Ks) : Ks :=
  let cruBits : BitVec 25 := 0x1FF0000
  { x with
    dir := x.dir.filterMap (fun e =>
      match e.2.st with
      | .he o => if isCruAid o then none else some e
      | .hs _ vec =>
        let v := vec &&& ~~~cruBits
        if v = 0 then none else some (e.1, { e.2 with st := .hs none v }))
    regions := (x.regions.map (fun e => (e.1, { e.2 with vec := e.2.vec &&& ~~~cruBits }))).filter (fun e => e.2.vec != 0) }

/-! ## Step 6: die versions (R549) -/

/-- The units of a die that reports another version are out of service. -/
def State.siteOut (s : State) (x : Nat) : State :=
  match siteUnit x with
  | .cru n => (s.setCru n {}).note (.cr n)
  | .ks k => (s.setFld 0x24004 k 1 0).modKs k (fun y => { y with out := true })
  | .edie e =>
    let s1 := (List.range 16).foldl (fun s i => s.ladleOut (16 * e + i)) (s.modQuoin e (fun _ => {}))
    (List.range 4).foldl (fun s c => (s.setCore (coreNo e c) {}).declareDead (aidCore (coreNo e c))) s1
  | .none => s

/-- DIE_VERSION of one die: its site in PARAM, and the version it reported in PARAM3. -/
def State.dieVersion (s : State) (x : Nat) (ver : Reg) : State :=
  if !hasSite s.build x || ver == s.reg 4 || siteE s.active == x then s
  else
    ((s.raise { src := 44, unit := unitSet, param := x, param3 := ver.toNat }).siteOut x).modRst
      (fun r => { r with badDies := setIns r.badDies x })

/-! ## Step 7: memory ports (R539, R549, R555) -/

/-- A memory port has trained, and Cokeben sets ENABLE; MAP_ERR keeps it at 0 (R539). -/
def State.portStart (s : State) (k : Nat) : State :=
  let s1 := s.setFld (aKs k 0xC004) 29 1 1
  if s1.mapErr k then s1 else (s1.setFld (aKs k 0xC000) 0 1 1).homeRun k

/-- A request kept at the Stop phase is sent again (R555). -/
def State.sendAgain (s : State) (m : Msg) : State :=
  match s.homeUp m.line with
  | some k => s.hostIssue { m with home := k }
  | none => s.gateReply m

/-- A K-die is among the dies out for their version, so that the build matches no row of Table 10.1. -/
def State.buildBroken (s : State) : Bool := s.rst.badDies.any (fun x => match siteUnit x with | .ks _ => true | _ => false)

/-- Step 7. -/
def State.portsStart (s : State) : State :=
  if s.buildBroken then (s.modRst (fun r => { r with stopped := true })).mark 0x0064 unitSet 7 0 0 0
  else
    let s1 := (buildKeys s.build).foldl (fun s k => if s.keyUp k then s.portStart k else s.mark 0x0064 (unitKs k) 7 0 0 0) s
    let s2 := s1.gates.foldl (fun s e => e.2.kept.foldl (fun s m => s.sendAgain m) s) (s1.modRst (fun r => { r with withheld := false }))
    { s2 with gates := s2.gates.map (fun e => (e.1, { e.2 with kept := [] })) }

/-! ## Step 8: the journal (R551, R245) -/

/-- A cold power-up: zeros, and empty tables. -/
def State.coldFormat (s : State) : State :=
  ({ s with stack := [], stackPoison := [], unspec := [] }.setFld 0x38008 16 1 1).mark 0x0061 unitSet (buildKeys s.build).length 0 0 0

/-- A warm power-up: the tables as found, and QN_PLACEMENT and QN_COH_REGION from the operation records. Every host domain is away, so that
its queues stand SUSPENDED (R439). -/
def State.warmRestore (s : State) (k : Kept) : State :=
  let s1 : State := { s with
    extents := k.extents, sanitizing := k.sanitizing, unspec := k.unspec, flasks := k.flasks, streams := k.streams, pours := k.pours
    queues := k.queues, rst := { s.rst with lastBoundary := k.lastBoundary } }
  let s2 := k.cfg.foldl (fun s e => s.setReg e.1 e.2) ((s1.setReg 0x24008 k.placement).setReg 0x28000 k.cohRegion)
  let s3 := k.notices.foldl (fun s e => s.modHd e.1 (fun d => { d with nqTail := e.2.1, nqHead := e.2.2.1, notices := e.2.2.2.1, lost := e.2.2.2.2 })) s2
  s3.hostDomains.foldl (fun s h => (s.suspend h 4).suspend h 5) s3

/-- Step 8. After a chip reset the check is skipped. The shutdown mark is erased. -/
def State.journalCheck (s : State) (markKept : Bool) : State :=
  let s1 := if s.rst.afterChip then s
    else match s.rst.mark with
      | some k => if markKept then s.warmRestore k else s.coldFormat
      | none => s.coldFormat
  let s2 := s1.modRst (fun r => { r with mark := none })
  (s2.setReg64 0x20008 s2.foundation).setReg64 0x20010 (s2.foundation + 0x1000000)

/-! ## Step 9: risers (R22) -/

/-- The crucibles that take the riser role: those listed after the interior block that passed, then the highest-numbered healthy ones. -/
def State.riserChoice (s : State) : List Nat :=
  let healthy := (buildCrus s.build).filter (fun n => (s.cru n).st == .idle)
  let outer := healthy.filter (fun n => (buildOuter s.build).contains n)
  outer ++ ((healthy.filter (fun n => !outer.contains n)).reverse.take (buildRisers s.build - outer.length))

def State.risersPick (s : State) : State :=
  let rs := s.riserChoice
  (buildCrus s.build).foldl (fun s n =>
    if (s.cru n).st ≠ .idle then s.setFld (aCr n 8) 8 2 0
    else if rs.contains n then ((s.modCru n (fun c => { c with aclkOn := false })).cruTo n .standby).setFld (aCr n 8) 8 2 2
    else s.setFld (aCr n 8) 8 2 1) s

/-! ## Step 10: work in flight (R558, R559, R561) -/

/-- A sanitize taken up: without a cursor from its first step (R259). -/
def State.sanitizeResume (s : State) (e : Nat) : State :=
  match tblFind s.extents e with
  | some x =>
    if x.st = .sanitizing then
      let s1 := if x.cursor = x.lo then s.purge x else s
      s1.mark 0x0062 unitSet (x.first * 2 ^ 28) (x.first * 2 ^ 28 / 2 ^ 32) ((x.cursor - x.lo) / 2 ^ 14) 0
    else s
  | none => s

/-- Step 10: charge records still PENDING, every queue's journal, and sanitizes. -/
def State.workResume (s : State) : State :=
  let pend := s.pours.flatMap (fun e => (e.2.ring.filter (fun r => r.2.outcome == 0)).map (fun r => (e.1, r.1)))
  let s1 := (s.modRst (fun r => { r with reruns := pend })).journalReplay
  s1.sanitizing.foldl (fun s e => s.sanitizeResume e) s1

/-! ## The steps -/

/-- QN_BRINGUP.DONE becomes 1 (R548): records 0x0063 and 0x0060, once. -/
def State.bringupCheck (s : State) : State :=
  if s.rst.done || !s.bringupDone then s
  else
    let s1 := s.rst.deadDrain.foldl (fun s n => s.mark 0x0063 (unitCru n) 0 0 0 0) (s.modRst (fun r => { r with done := true, deadDrain := [] }))
    s1.mark 0x0060 unitSet (s1.fld 0x38004 0 3) ((s1.tb.now - s1.rst.since) / 1000) s1.activeCrus.length s1.risersLeft.length

/-- What a step does at its beginning. -/
def State.stepRun (s : State) (o : BringupObs) : Nat → State
  | 1 => if s.rst.afterChip then { s with kss := s.kss.map (fun e => (e.1, e.2.purge)) } else s
  | 2 => s.sprueLinks.foldl (fun s e => s.setLink e.1 e.2 { st := .training }) s
  | 4 =>
    ((buildCrus s.build).filter (fun n => (s.cru n).st == .off && !s.rst.badDies.contains (siteCru n))).foldl
      (fun s n => (s.modCru n (fun c => { c with aclkOn := true })).cruTo n .selftest) s
  | 6 => o.badDies.foldl (fun s e => s.dieVersion e.1.val e.2) (s.rst.badDies.foldl (fun s x => s.siteOut x) s)
  | 7 => s.portsStart
  | 8 => s.journalCheck o.warmMark
  | 9 => s.risersPick
  | 10 => s.workResume
  | 11 => if s.tb.starting || s.tb.running then s else (s.setFld (aCo 0) 0 1 1).tbStart
  | 12 =>
    (((List.range 8).filter (fun g => s.gateIn g && (s.gate g).prsnt && s.slotState g < 2)).foldl
      (fun s g => ((s.setSlot g 1 0 0).modGate g (fun x => { x with seenPrsnt := x.prsntCount })).slotStart g) s).bringupCheck
  | _ => s

/-- BRINGUP_STEP (R548): step i begins once the steps it depends on have ended. While a Drain phase runs, it moves on instead. -/
def execBringupStep (i : Fin 13) (o : BringupObs) (s : State) : Host.Outcome State Fault Refusal :=
  .next (
    let n := i.val
    if s.rst.phase ≠ .none then s.drainAdvance
    else if n = 0 ∨ n = 3 ∨ n = 5 ∨ s.rst.steps.contains n = true ∨ (stepNeeds n).all (fun j => s.stepEnded j) = false then s
    else (s.modRst (fun r => { r with steps := setIns r.steps n })).stepRun o n)

end Sys2Proof.Machine
end

