-- ==== Sys2Proof/Machine/Boundary.lean ====
section
/-! DEFINITION. The course boundary (R67, Table 3.3): the eight steps in order, with what each block does in them (R39 to R41, R50 to R52,
R365 to R368, R371, R413, R495, R509), and the rows CHARGE_DEADLINE and ACCESS_DEAD_DECLARE. -/

namespace Sys2Proof.Machine

open Sys2Proof

/-! ## Course-applied values (R39 to R41) -/

/-- The RW and RWC bits of the word at a base-page block address. -/
def kindAt (a : Nat) : RegKind := match winOf (a % 2 ^ 32) with | some (w, o) => regKind w o | none => ⟨0, 0⟩

/-- PHASE has become other than `old`: every reservation of the set ends (R371), and a test ends (R543). -/
def State.phaseFrom (s : State) (old : Nat) : State :=
  if s.fld 0x2C000 8 2 = old then s
  else
    let s1 : State := { s with
      kss := s.kss.map (fun e => (e.1, { e.2 with resvs := [] }))
      crus := s.crus.map (fun e => (e.1, { e.2 with resv := none }))
      cores := s.cores.map (fun e => (e.1, { e.2 with codeResv := none })) }
    if old = 2 then s1.testEnd else s1

/-- What new values in effect of a register's RWC fields do in its block. -/
def State.rwcEffect (s : State) (a : Nat) (old : Reg) : State :=
  match winOf a with
  | some (.cr n, o) => if o = 0x4000 then s.cacheApply n ((s.reg a).getLsbD 0) else s
  | some (.ks k, o) => if o = 0x8000 then s.hearthApply k ((s.reg a).getLsbD 0) else s
  | some (.qn, o) =>
    if o = 0x24008 then s.placementApply old
    else if o = 0x2C000 then s.phaseFrom (bitsOf old 8 2)
    else s
  | _ => s

/-- The RWC fields of one word take new values. -/
def State.rwcPut (s : State) (a : Nat) (v : Reg) : State :=
  let old := s.reg a
  let m := (kindAt a).rwc
  (s.setReg a ((old &&& ~~~m) ||| (v &&& m))).rwcEffect a old

/-- Every block applies its buffered values (R40). -/
def State.rwcApply (s : State) : State := s.rwcBuf.foldl (fun s e => s.rwcPut e.1 e.2) { s with rwcBuf := [] }

/-- Step 1 of Table 3.3, with the other changes that take effect there. -/
def State.boundaryOne (s : State) : State :=
  let s1 := s.rwcApply.flasksApply.extentsApply
  let s2 := (s1.hds.filter (fun e => !e.2.flrExts.isEmpty)).foldl (fun s e => s.flrZero e.1) s1
  let s3 := s2.ksOutApply
  s3.takeoverApply.phaseFrom (s3.fld 0x2C000 8 2)

/-! ## Steps 2 and 3 (R51, R52, R56) -/

/-- CO_COURSE, CO_BOUNDARY_TIME with a pending forward step, ALIGNED, and the frame counts. The first course has the length in effect at
its boundary, since CO_DIVISOR acts as RW until then (R41). -/
def Timebase.open_ (b : Timebase) (n period : Nat) : Timebase :=
  let fwd := b.fwdStep.getD 0
  let bt := b.dueTime + fwd
  let frame := if b.firstDue.isSome then b.frame else b.frame - (b.curN + 1)
  let cur := if b.firstDue.isSome then n else b.nextN
  let more := cur < frame
  { b with fwdStep := none, edgeTime := b.edgeTime + fwd, boundaryTime := bt, course := (b.firstDue.getD (b.course + 1)) % 2 ^ 48,
           aligned := bt % ((cur + 1) * period) == 0, running := true, starting := false, freeRun := false, firstDue := none,
           curN := cur, nextN := n, frame := frame, due := more, dueTime := if more then b.edgeTime + fwd else bt,
           holdCourses := if b.holdover then satAdd 32 b.holdCourses 1 else b.holdCourses }

def State.boundaryTwo (s : State) : State := (s.modTb (fun b => b.open_ s.divN s.period)).note .co

/-! ## Step 4: accesses declared dead (R365 to R367) -/

/-- DEAD_COURSES; 0 acts as 1. -/
def State.deadCourses (s : State) : Nat := max 1 (s.fld 0x2C000 0 8)

/-- The unit that a requester's AID names in a fault record (Table 22.4). -/
def aidUnit (a : Nat) : Nat := if a = aidSet then unitSet else a

/-- A crucible's access declared dead: a load ends with an error, a fetch traps FETCH_POISON, a write-back leaves its buffer as with a
Cmp, and a store is remembered for the next barrier (R366, R367). -/
def State.cruDeadAccess (s : State) (a : Access) : State :=
  let n := a.aid
  let s1 := if a.store then s.modCru n (fun c => { c with mki := { c.mki with deadStore := true } }) else s
  if a.wb then (s1.cruWbCmp n a.line).cruAfter n
  else
  match tblFind (s1.cru n).miss a.line with
  | some e =>
    if e.tag = a.tag then
      let s2 := s1.modCru n (fun c => { c with miss := tblSet c.miss a.line { e with err := true } })
      let pc := (s2.cru n).mki.pc
      let s3 := if e.fetch && (s2.cru n).fetchPend then (s2.modCru n (fun c => { c with fetchPend := false })).cruTrap n .seq tFetchPoison pc pc else s2
      let s4 := s3.cruAfter n
      if (s4.cru n).xq.isEmpty then s4.modCru n (fun c => { c with miss := c.miss.filter (fun e => !e.2.err) }) else s4
    else s1.cruAfter n
  | none => s1.cruAfter n

/-- A control core's. -/
def State.coreDeadAccess (s : State) (a : Access) : State :=
  let x := a.aid - 0xC0
  let stored (s : State) : State := if a.store then s.modCore x (fun c => { c with mki := { c.mki with deadStore := true } }) else s
  match (s.core x).wait with
  | .load i tag => if tag = a.tag then s.coreTrap x i.pc tMemError ((i.opv 0).toNat) else stored s
  | .dev i tag => if tag = a.tag then s.coreTrap x i.pc tMemError ((i.opv 0).toNat) else stored s
  | .fetch _ tag => if tag = a.tag then s.coreTrap x (s.core x).mki.pc tFetchPoison (s.core x).mki.pc else stored s
  | .cond i tag =>
    if tag = a.tag then (stored s).modCore x (fun c => { c with mki := c.mki.setS (i.ws.getD 0 0) 1, wait := .none }) else stored s
  | _ => stored s

/-- A ladle's: its fragment fails (R415). -/
def State.ladleDeadAccess (s : State) (a : Access) : State :=
  let l := a.aid - 0x80
  if a.store then
    (s.modLadle l (fun x => { x with descs := x.descs.map (fun d =>
      match d.reqs.find? (fun r => r.ph == .write a.tag) with
      | some r => LDesc.failed { d with reqs := d.reqs.filter (fun r => r.ph != .write a.tag) } r.frag false
      | none => d) })).ladlePush l
  else s.ladleData l { kind := .dataC, aid := a.aid, home := a.home, line := a.line, tag := a.tag, poison := true }

/-- One access declared dead: it is counted, ACCESS_DEAD is raised for its target, which stops, and its requester goes on. -/
def State.accessDead (s : State) (a : Access) : State :=
  let s0 : State := { s with outst := s.outst.filter (fun b => !(b.aid == a.aid && b.tag == a.tag)) }
  let s1 := ((s0.bump64 0x2C008 1).raise { src := 20, unit := unitKs a.home, param := 64 * a.line, param2 := aidUnit a.aid }).ksStop a.home
  if isCruAid a.aid then s1.cruDeadAccess a
  else if isCoreAid a.aid then s1.coreDeadAccess a
  else if isLadleAid a.aid then s1.ladleDeadAccess a
  else if isHostAid a.aid then
    s1.send { kind := if a.store then .cmp else .dataC, aid := a.aid, home := a.home, line := a.line, tag := a.tag, poison := !a.store }
  else if a.aid = aidSet then s1.ownData a.tag none
  else s1

/-- Every access that this boundary declares dead (R365). -/
def State.accessesDead (s : State) : State :=
  (s.outst.filter (fun a => s.deadCourses ≤ a.age + 1)).foldl (fun s a => s.accessDead a) s

/-- ACCESS_DEAD_DECLARE (R365): at step 4 of the boundary that is due. A keystone that it takes out leaves at the boundary after that
one (R514). -/
def execAccessDeadDeclare (s : State) : Host.Outcome State Fault Refusal :=
  .next (
    if s.tb.due && !s.inReset then
      let s1 := s.accessesDead
      { s1 with ksOut := s.ksOut, ksOutLate := (s1.ksOut.filter (fun k => !s.ksOut.contains k)).foldl setIns s1.ksOutLate }
    else s)

/-- Step 4 of Table 3.3. -/
def State.boundaryFour (s : State) : State :=
  let s1 := s.accessesDead
  let s2 : State := { s1 with outst := s1.outst.map (fun a => { a with age := a.age + 1 }), ksOut := s1.ksOutLate.foldl setIns s1.ksOut,
                               ksOutLate := [] }
  let b := s2.chillTick.beatsCount
  let s3 := if b.takeLate.isSome || b.fc.hbLate then
      State.modFc { b with takeover := b.takeover.or b.takeLate, takeLate := none } (fun f => { f with hbLost := f.hbLost || f.hbLate, hbLate := false })
    else (b.takeoverDecide b).beatLost b
  let s4 := (s3.modQuoin s3.active (fun q => { q with handover := false })).modTb (fun t => { t with unjudged := false })
  let s5 : State := { s4.tagsTick with queues := s4.tagsTick.queues.map (fun e => (e.1, { e.2 with reread := e.2.retries != 0 })) }
  s5.freezeTick

/-! ## Step 5 (R230, R231, R261, R558) -/

/-- CHARGE_DEADLINE (R230): at step 5 of the boundary that is due, at which it is the deadline boundary of the charge; the outcomes of
that step take effect together, in COURSE_BOUNDARY (R231). -/
def execChargeDeadline (p slot : Fin 4096) (s : State) : Host.Outcome State Fault Refusal :=
  .next (
    if s.tb.due && !s.inReset && s.takeover.isNone && s.fld 0x20000 0 1 == 1 then
      match s.charge p.val slot.val with
      | some c => if c.undone && decide (c.deadline ≤ s.course) then s.deadline s.course p.val slot.val c else s
      | none => s
    else s)

/-- The first step 5 after bring-up: records still PENDING are rerun, or end LOST (R558). -/
def State.reruns558 (s : State) (ended : Nat) : State :=
  s.rst.reruns.foldl (fun s e =>
    match tblFind s.pours e.1, s.charge e.1 e.2 with
    | some x, some c =>
      if c.outcome ≠ 0 then s
      else if c.attempt = 2 then s.setRun e.1 e.2 .lost
      else match s.pick (s.members x.cset) with
        | some n => ((s.setCharge e.1 e.2 { c with deadline := ended + 1, bound := ended + 1, excused := true }).rerunOn e.1 e.2 n).2
        | none => s.setRun e.1 e.2 .lost
    | _, _ => s) (s.modRst (fun r => { r with reruns := [] }))

/-- The cursor of each sanitize that is served (R260, R261): a line below which the extent is already zero. How far the writes have come
is not stated: a free value (log entry 1). -/
def State.cursors (s : State) : State :=
  s.sanitizing.foldl (fun s e =>
    match tblFind s.extents e with
    | some x =>
      if x.st = .sanitizing ∧ x.ended = false ∧ s.served e x = true then
        let (v, s1) := s.takeNat
        let c := x.cursor + v % (x.hi - x.cursor + 1)
        { s1 with extents := tblSet s1.extents e { x with cursor := c } }.zeroLines x.cursor c
      else s
    | none => s) s

/-- Step 5 of Table 3.3 for the course that has ended. -/
def State.boundaryFive (s : State) (ended : Nat) : State :=
  let s1 := if s.fld 0x20000 0 1 = 1 then
      ((s.reruns558 ended).judgeAll ended).modRst (fun r => { r with lastBoundary := ended })
    else s
  s1.cursors

/-! ## Steps 7 and 8 (R413, R542, R509, R495) -/

/-- The window of ladle l for course c. -/
def State.ladleOpens (s : State) (l c : Nat) : Bool :=
  let a := aLd (0x4000 + 4 * l)
  ((c : Int) - (s.fld a 8 4 : Int)) % ((s.fld a 0 4 : Int) + 1) == 0

/-- A descriptor holds a host-side request that is open or queued (Table 17.4): a line of its range still to be moved over the link, or
the final read of ORDERED (R438). -/
def LDesc.hostLeft (d : LDesc) : Bool :=
  d.hostSide && (d.op == 2 || decide (d.next ≤ d.lastLine) || d.reqs.any (fun r => match r.ph with | .host _ => true | _ => false))

/-- The value of the head's LTR message (R468): snoop latency at [15:0] and no-snoop latency at [31:16], both the tolerance of GT_LTR with
the requirement bit, or no requirement. -/
def State.ltrValue (s : State) (g : Nat) : Nat :=
  let open_ := (s.gate g).tags.any (fun e => e.2.left.isNone) ||
    s.ladles.any (fun e => e.2.descs.any (fun d => d.hd / 16 == g && d.hostLeft))
  if open_ then 65537 * (0x8000 + 1024 * s.fld (aGt g 0x4008) 13 3 + s.fld (aGt g 0x4008) 0 10) else 0

/-- The LTR message of a head, when the mechanism is enabled, the link is in L0 and the value has changed (R468; log entry 98). -/
def State.ltrSend (s : State) (g : Nat) : State :=
  if s.ltrOn g && (s.gate g).inL0 && s.ltrValue g != (s.gate g).ltr then
    s.modGate g (fun x => { x with ltr := s.ltrValue g, ltrMsgs := x.ltrMsgs + 1 })
  else s

/-- Step 7: ladle windows, with their budgets, scrub windows, and LTR messages (R468). `opens` is false at a paused step. -/
def State.boundarySeven (s : State) (opens : Bool) : State :=
  let s1 := ((List.range 64).filter (fun l => hasLd s.build l)).foldl (fun s l =>
    let b := s.fld (aLd (0x4000 + 4 * l)) 16 16
    let on := opens && s.ladleOpens l s.course
    s.modLadle l (fun x => { x with opened := on, budget := if b = 0 then none else some (2 ^ 20 * b) })) s
  let s2 := (buildKeys s.build).foldl (fun s k => s.modKs k (fun x => { x with scrubLeft := if opens then s.fld (aKs k 0xC510) 0 21 else 0 })) s1
  if opens then (List.range 8).foldl (fun s g => s.ltrSend g) s2 else s2

/-- Step 8: ALIVE, and the course event at every quoin. -/
def State.boundaryEight (s : State) : State :=
  let s1 := s.quoinsAll.foldl (fun s e => s.latchLine e 0) s
  let s2 : State := { s1 with fw := { s1.fw with scanDue := true } }
  s2.modFc (fun f =>
    if f.aliveStopped && f.aliveBy == s.active then f else { f with alive := !f.alive, aliveStopped := false })

/-! ## The whole step -/

/-- The end of bring-up step 11 with the first boundary: PHASE := NORMAL and QN_POUR_CTRL.ENABLE := 1 (Table 25.2), and record 0x0065
(R560). -/
def State.firstBoundary (s : State) : State :=
  if s.rst.steps.contains 11 then
    let p := s.fld 0x2C000 8 2
    let s1 := ((s.setFld 0x2C000 8 2 1).phaseFrom p).setFld 0x20000 0 1 1
    if s.rst.afterChip && decide (s.course ≤ s.rst.lastBoundary) then s1.mark 0x0065 unitSet s.course s.rst.lastBoundary 0 0 else s1
  else s

/-- A boundary step (Table 3.3). A decided takeover takes place at its step 1, and pauses its steps 5 to 7 (R495). What R68 puts off
follows step 8. -/
def State.boundaryStep (s : State) : State :=
  let ended := s.course
  let first := s.tb.firstDue.isSome
  let former := s.active
  let handing := s.takeover.isSome
  let s4 := s.boundaryOne.boundaryTwo.boundaryFour
  let s5 := if handing then { s4 with paused := true } else (s4.boundaryFive ended).releaseAll s4.course
  let s6 : State := { s5 with failoverLeft := s5.failoverLeft - 1 }
  let s8 := ((s6.boundarySeven (!handing)).boundaryEight).blkCruRun
  let s9 := (if handing then s8.takeoverEnd former else s8).flasksDone s.flaskPend
  (if first then s9.firstBoundary else s9).bringupCheck

/-- COURSE_BOUNDARY (R67): at a boundary edge. HEARTBEAT_LOST without a warm quoin makes it a chip reset (R520). -/
def execCourseBoundary (s : State) : Host.Outcome State Fault Refusal :=
  .next (
    if !s.tb.due || s.inReset then s
    else if s.fc.hbLost then s.chipBegin 4 0 false
    else s.boundaryStep)

end Sys2Proof.Machine
end

