-- ==== Sys2Proof/Machine/MkiMem.lean ====
section
/-! DEFINITION. The memory instructions of MKI (R166, R195 to R205): loads, stores, pairs, reservations, RAM, cln and cfl, transfers
and leaf access; and the FETCH command (R189, R333). DEVICE stores stand with the register writes. -/

namespace Sys2Proof.Machine

open Sys2Proof

/-- An instruction that a crucible places in XQ and a control core performs itself. -/
def State.pool (s : State) (u : MUnit) (f : FmtC) (bad : Bool) (ops ws : List (BitVec 6)) (ins : Instr)
    (core : Fin 4 → Fin 4 → State → State) : State :=
  match u with
  | .cru n => s.place (.cru n) f.g .xq bad ⟨ops ++ ws, []⟩ true (fun m => ops.map (fun r => m.sreg r.toNat)) (ws.map (·.toNat)) [] ins
  | .core e c => s.front (.core e c) f.g bad false ⟨[], []⟩ true (core e c)

/-- The effective address of a control core's access. -/
def Mki.addr (m : Mki) (f : FmtC) : Nat := effAddr (m.sreg f.base.toNat) (m.sreg f.idx.toNat) f.sh f.off

/-- The register after an even one (R195). -/
def oddOf (d : BitVec 6) : BitVec 6 := d + 1

/-- A load of `size` bytes. -/
def State.load (s : State) (u : MUnit) (f : FmtC) (size : Nat) (sgn : Bool) (ins : Instr) : State :=
  s.pool u f (badC f) [f.base, f.idx] [f.d] ins (fun e c s => s.coreLoad e c ((s.mki u).addr f) size sgn false [f.d.toNat] ins)

/-- A store of `size` bytes. -/
def State.store (s : State) (u : MUnit) (f : FmtC) (size : Nat) (ins : Instr) : State :=
  s.pool u f (badC f) [f.base, f.idx, f.d] [] ins (fun e c s =>
    s.coreStore e c ((s.mki u).addr f) size (((s.mki u).sreg f.d.toNat).toNat % 2 ^ (8 * size)))

/-- A transfer between pool and mould (R166). -/
def State.xfer (s : State) (u : MUnit) (f : FmtD) (ins : Instr) : State :=
  s.place u f.g .xq (badXfer f) ⟨[f.sa, f.sb, f.sx], []⟩ true (fun m => [m.sreg f.sa.toNat, m.sreg f.sb.toNat, m.sreg f.sx.toNat]) [] [] ins

/-- A leaf transfer (R204). -/
def State.leaf (s : State) (u : MUnit) (f : FmtC) (ins : Instr) : State :=
  s.place u f.g .xq (badLeaf f) ⟨[f.base, f.idx, f.d], []⟩ true (fun m => [m.sreg f.base.toNat, m.sreg f.idx.toNat, m.sreg f.d.toNat]) [] [] ins

/-- xld (R166). -/
def execXld (u : MUnit) (f : FmtD) (s : State) : Host.Outcome State Fault Refusal :=
  .next (s.xfer u f (.xld u f))

/-- xldn (R166). -/
def execXldn (u : MUnit) (f : FmtD) (s : State) : Host.Outcome State Fault Refusal :=
  .next (s.xfer u f (.xldn u f))

/-- xst (R166). -/
def execXst (u : MUnit) (f : FmtD) (s : State) : Host.Outcome State Fault Refusal :=
  .next (s.xfer u f (.xst u f))

/-- xstn (R166). -/
def execXstn (u : MUnit) (f : FmtD) (s : State) : Host.Outcome State Fault Refusal :=
  .next (s.xfer u f (.xstn u f))

/-- ldb (R195). -/
def execLdb (u : MUnit) (f : FmtC) (s : State) : Host.Outcome State Fault Refusal :=
  .next (s.load u f 1 false (.ldb u f))

/-- ldbs (R195). -/
def execLdbs (u : MUnit) (f : FmtC) (s : State) : Host.Outcome State Fault Refusal :=
  .next (s.load u f 1 true (.ldbs u f))

/-- ldh (R195). -/
def execLdh (u : MUnit) (f : FmtC) (s : State) : Host.Outcome State Fault Refusal :=
  .next (s.load u f 2 false (.ldh u f))

/-- ldhs (R195). -/
def execLdhs (u : MUnit) (f : FmtC) (s : State) : Host.Outcome State Fault Refusal :=
  .next (s.load u f 2 true (.ldhs u f))

/-- ldw (R195). -/
def execLdw (u : MUnit) (f : FmtC) (s : State) : Host.Outcome State Fault Refusal :=
  .next (s.load u f 4 false (.ldw u f))

/-- ldws (R195). -/
def execLdws (u : MUnit) (f : FmtC) (s : State) : Host.Outcome State Fault Refusal :=
  .next (s.load u f 4 true (.ldws u f))

/-- ldd (R195). -/
def execLdd (u : MUnit) (f : FmtC) (s : State) : Host.Outcome State Fault Refusal :=
  .next (s.load u f 8 false (.ldd u f))

/-- stb (R195, R197). -/
def execStb (u : MUnit) (f : FmtC) (s : State) : Host.Outcome State Fault Refusal :=
  .next (s.store u f 1 (.stb u f))

/-- sth (R195, R197). -/
def execSth (u : MUnit) (f : FmtC) (s : State) : Host.Outcome State Fault Refusal :=
  .next (s.store u f 2 (.sth u f))

/-- stw (R195, R197). -/
def execStw (u : MUnit) (f : FmtC) (s : State) : Host.Outcome State Fault Refusal :=
  .next (s.store u f 4 (.stw u f))

/-- std (R195, R197). -/
def execStd (u : MUnit) (f : FmtC) (s : State) : Host.Outcome State Fault Refusal :=
  .next (s.store u f 8 (.std u f))

/-- ldp (R195, R198). -/
def execLdp (u : MUnit) (f : FmtC) (s : State) : Host.Outcome State Fault Refusal :=
  .next (s.pool u f (badPair f) [f.base, f.idx] [f.d, oddOf f.d] (.ldp u f) (fun e c s =>
    s.coreLoad e c ((s.mki u).addr f) 16 false false [f.d.toNat, f.d.toNat + 1] (.ldp u f)))

/-- stp (R195, R198). -/
def execStp (u : MUnit) (f : FmtC) (s : State) : Host.Outcome State Fault Refusal :=
  .next (s.pool u f (badPair f) [f.base, f.idx, f.d, oddOf f.d] [] (.stp u f) (fun e c s =>
    let m := s.mki u
    s.coreStore e c (m.addr f) 16 ((m.sreg f.d.toNat).toNat + 2 ^ 64 * (m.sreg (f.d.toNat + 1)).toNat)))

/-- ldres (R200, R201). -/
def execLdres (u : MUnit) (f : FmtC) (s : State) : Host.Outcome State Fault Refusal :=
  .next (s.pool u f (badLdres f) [f.base, f.idx] [f.d] (.ldres u f) (fun e c s =>
    s.coreLoad e c ((s.mki u).addr f) 8 false true [f.d.toNat] (.ldres u f)))

/-- stcond (R200, R201, R374): IDX names the status register. -/
def execStcond (u : MUnit) (f : FmtC) (s : State) : Host.Outcome State Fault Refusal :=
  .next (s.pool u f (badStcond f) [f.base, f.d] [f.idx] (.stcond u f) (fun e c s =>
    let m := s.mki u
    s.coreStcond e c (m.sreg f.base.toNat + f.off.signExtend 64).toNat f.idx.toNat (m.sreg f.d.toNat) (.stcond u f)))

/-- ram (R202). -/
def execRam (u : MUnit) (f : FmtC) (fn : BitVec 4) (s : State) : Host.Outcome State Fault Refusal :=
  .next (s.place u f.g .xq (badRam f fn) ⟨[f.base, f.idx, f.d], []⟩ true
    (fun m => [m.sreg f.base.toNat, m.sreg f.idx.toNat, m.sreg f.d.toNat]) [] [] (.ram u f fn))

/-- cln (R203). -/
def execCln (u : MUnit) (f : FmtC) (s : State) : Host.Outcome State Fault Refusal :=
  .next (s.place u f.g .xq (badLine f) ⟨[f.base, f.idx], []⟩ true (fun m => [m.sreg f.base.toNat, m.sreg f.idx.toNat]) [] [] (.cln u f))

/-- cfl (R203). -/
def execCfl (u : MUnit) (f : FmtC) (s : State) : Host.Outcome State Fault Refusal :=
  .next (s.place u f.g .xq (badLine f) ⟨[f.base, f.idx], []⟩ true (fun m => [m.sreg f.base.toNat, m.sreg f.idx.toNat]) [] [] (.cfl u f))

/-- lfld (R204, R205). -/
def execLfld (u : MUnit) (f : FmtC) (s : State) : Host.Outcome State Fault Refusal :=
  .next (s.leaf u f (.lfld u f))

/-- lfldn (R204, R205). -/
def execLfldn (u : MUnit) (f : FmtC) (s : State) : Host.Outcome State Fault Refusal :=
  .next (s.leaf u f (.lfldn u f))

/-- lfst (R204, R205). -/
def execLfst (u : MUnit) (f : FmtC) (s : State) : Host.Outcome State Fault Refusal :=
  .next (s.leaf u f (.lfst u f))

/-- lfstn (R204, R205). -/
def execLfstn (u : MUnit) (f : FmtC) (s : State) : Host.Outcome State Fault Refusal :=
  .next (s.leaf u f (.lfstn u f))

/-- lfldw (R204, R205). -/
def execLfldw (u : MUnit) (f : FmtC) (s : State) : Host.Outcome State Fault Refusal :=
  .next (s.leaf u f (.lfldw u f))

/-- lfldwn (R204, R205). -/
def execLfldwn (u : MUnit) (f : FmtC) (s : State) : Host.Outcome State Fault Refusal :=
  .next (s.leaf u f (.lfldwn u f))

/-- lfq (R204, R205). -/
def execLfq (u : MUnit) (f : FmtC) (fn : BitVec 4) (s : State) : Host.Outcome State Fault Refusal :=
  .next (s.place u f.g .xq (badLfq f fn) ⟨[f.base, f.d], []⟩ true (fun m => [m.sreg f.base.toNat]) [f.d.toNat] [] (.lfq u f fn))

/-- A DEVICE load (R195, R197, R362): on a control core the whole block space. A register of a keystone that performs nothing more
never answers (R365). -/
def State.loadDev (s : State) (u : MUnit) (f : FmtC) (sz : AccSize) (ins : Instr) : State :=
  s.pool u f (badC f) [f.base, f.idx] [f.d] ins (fun e c s =>
    let m := s.mki u
    let a := m.addr f
    match devCheck a (if sz = .b8 then 8 else 4) true with
    | some (k, b) => s.unitTrap u .xq k m.pc b
    | none =>
      match s.devStuck a with
      | some k => s.devWait e c k a false ins
      | none => let (v, s1) := s.regRead (.core e c) a sz; s1.modMki u (fun m => (m.setS f.d.toNat v).step))

/-- ldwd (R195). -/
def execLdwd (u : MUnit) (f : FmtC) (s : State) : Host.Outcome State Fault Refusal :=
  .next (s.loadDev u f .b4 (.ldwd u f))

/-- lddd (R195, R197). -/
def execLddd (u : MUnit) (f : FmtC) (s : State) : Host.Outcome State Fault Refusal :=
  .next (s.loadDev u f .b8 (.lddd u f))

/-- FETCH: the fetch at a unit's PC (R73, R146, R189, R333, R346): a trap, of the address, of a poisoned word or of a word that is no
instruction; a line of the cache entered into the instruction cache; or a request for the line, for which dispatch then waits. -/
def execFetch (u : MUnit) (s : State) : Host.Outcome State Fault Refusal :=
  .next (
    if !s.ready u then s
    else
      let pc := (s.mki u).pc
      match s.fetchTrap u with
      | some (c, a) => s.unitTrap u .seq c pc a
      | none =>
        match u with
        | .cru n =>
          let line := pc / 64
          let c := s.cru n.val
          match tblFind c.ic line, tblFind c.cache line with
          | some l, _ => if mkiDefined (lineInstr l.1 pc) then s else s.unitTrap u .seq tIllegal pc 0
          | none, some x =>
            if c.cst = .invalidating then s else (s.bump64 (aCr n.val 0x4020) 1).fetched n.val line x.data x.poison
          | none, none =>
          if c.cst = .invalidating || (tblFind c.wb line).isSome then s
          else
            match tblFind c.miss line, s.homeUp line with
            | some e, _ => s.modCru n.val (fun c => { c with miss := tblSet c.miss line { e with fetch := true }, fetchPend := true })
            | none, some k =>
              (match s.openMiss n.val line k (if c.installs then .rds else .rdc) (!c.installs) true with
              | some s1 => s1.modCru n.val (fun c => { c with fetchPend := true })
              | none => s)
            | none, none => s
        | .core e c =>
          let x := coreIx e c
          if s.inCodeWindow pc then
            (if mkiDefined (BitVec.ofNat 64 (s.codeNat e.val (pc - s.codeWindow) 8)) then s else s.unitTrap u .seq tIllegal pc 0)
          else
            match s.homeUp (pc / 64) with
            | none => s
            | some k =>
              if s.posted (aidCore x) (pc / 64) || !s.hasCredit (aidCore x) k then s
              else
                let (tag, s1) := s.newTag
                ((s1.issue { aid := aidCore x, home := k, line := pc / 64, store := false, tag := tag }).send
                  { kind := .rdc, aid := aidCore x, home := k, line := pc / 64, tag := tag }).modCore x
                  (fun c => { c with wait := .fetch (pc / 64) tag }))

end Sys2Proof.Machine
end

