-- ==== Sys2Proof/Machine/MkiScalar.lean ====
section
/-! DEFINITION. The scalar instructions of MKI (R185 to R194): arithmetic, logic, compares, predicates, branches, CSRs, END, BREAK,
ERET and WFI. -/

namespace Sys2Proof.Machine

open Sys2Proof

/-! ## Shared forms -/

/-- Leading zeros of a w-bit number. -/
def countLead : Nat → Nat → Nat
  | 0, _ => 0
  | w + 1, x => if x.testBit w then 0 else 1 + countLead w x

/-- Trailing zeros of a w-bit number. -/
def countTrail : Nat → Nat → Nat
  | 0, _ => 0
  | w + 1, x => if x % 2 = 1 then 0 else 1 + countTrail w (x / 2)

/-- Set bits of a w-bit number. -/
def countOnes : Nat → Nat → Nat
  | 0, _ => 0
  | w + 1, x => x % 2 + countOnes w (x / 2)

/-- s[D] := s[A] op s[B] (R185). -/
def State.alu3 (s : State) (u : MUnit) (f : FmtA) (op : Word → Word → Word) : State :=
  s.scalar u f.g (resA f) ⟨[f.d, f.a, f.b], []⟩ (fun m => m.setS f.d.toNat (op (m.sreg f.a.toNat) (m.sreg f.b.toNat)))

/-- s[D] := op s[A], B being 0 (R185). -/
def State.alu2 (s : State) (u : MUnit) (f : FmtA) (op : Word → Word) : State :=
  s.scalar u f.g (resA f || f.b != 0) ⟨[f.d, f.a], []⟩ (fun m => m.setS f.d.toNat (op (m.sreg f.a.toNat)))

/-- s[D] := s[A] op sext(IMM) (R185). -/
def State.aluI (s : State) (u : MUnit) (f : FmtB) (op : Word → Word → Word) : State :=
  s.scalar u f.g false ⟨[f.d, f.a], []⟩ (fun m => m.setS f.d.toNat (op (m.sreg f.a.toNat) (f.imm.signExtend 64)))

/-- s[D] from the immediate and its old value, A being 0 (R185). -/
def State.movIns (s : State) (u : MUnit) (f : FmtB) (op : Word → Word) : State :=
  s.scalar u f.g (f.a != 0) ⟨[f.d], []⟩ (fun m => m.setS f.d.toNat (op (m.sreg f.d.toNat)))

/-- A compare's result in every bit (R185, R148). -/
def allBits (b : Bool) : Word := if b then BitVec.allOnes 64 else 0

/-- p[D] := all ones when s[A] op s[B] holds, else 0 (R185). -/
def State.cmp3 (s : State) (u : MUnit) (f : FmtA) (op : Word → Word → Bool) : State :=
  s.scalar u f.g (resA f || !pOk f.d) ⟨[f.a, f.b], [f.d]⟩
    (fun m => m.setP f.d.toNat (allBits (op (m.sreg f.a.toNat) (m.sreg f.b.toNat))))

/-- p[D] := all ones when s[A] op sext(IMM) holds, else 0 (R185). -/
def State.cmpI (s : State) (u : MUnit) (f : FmtB) (op : Word → Word → Bool) : State :=
  s.scalar u f.g (!pOk f.d) ⟨[f.a], [f.d]⟩ (fun m => m.setP f.d.toNat (allBits (op (m.sreg f.a.toNat) (f.imm.signExtend 64))))

/-- p[D] := p[A] op p[B]; B is 0 for pnot (R185). -/
def State.plog (s : State) (u : MUnit) (f : FmtA) (useB : Bool) (op : Word → Word → Word) : State :=
  s.scalar u f.g (resA f || !pOk f.d || !pOk f.a || (if useB then !pOk f.b else f.b != 0)) ⟨[], [f.d, f.a, f.b]⟩
    (fun m => m.setP f.d.toNat (op (m.preg f.a.toNat) (m.preg f.b.toNat)))

/-- PC + sext(IMM) * 8 (R188). -/
def relTarget (pc : Nat) (imm : BitVec 32) : Nat := (BitVec.ofNat 64 pc + (imm.signExtend 64 <<< 3)).toNat

/-- s[A] + sext(IMM) (R188). -/
def absTarget (a : Word) (imm : BitVec 32) : Nat := (a + imm.signExtend 64).toNat

/-- A branch (R188): its effect sets PC; where the guard is 0 the next instruction follows. -/
def State.branch (s : State) (u : MUnit) (f : FmtB) (illegal : Bool) (r : Uses) (eff : Mki → Nat → Mki) : State :=
  s.front u f.g illegal false r true (fun s => s.modMki u (fun m => eff m m.pc))

/-! ## CSRs (R149, R190, R191) -/

/-- Whether a CSR belongs to the control profile only (R149). -/
def csrControl (k : Nat) : Bool := 0x100 ≤ k && k < 0x200

/-- The value of a CSR (Table 6.4), and the state after a free value is taken for CYCLE (log entry 1). -/
def State.csrRead (s : State) (u : MUnit) (k : Nat) : Word × State :=
  let m := s.mki u
  let w (n : Nat) : Word × State := (BitVec.ofNat 64 n, s)
  match k with
  | 0x000 => w m.astat.toNat
  | 0x001 => w (b2n m.incomplete)
  | 0x002 => (match u with | .cru n => w n.val | .core e c => w (256 + coreIx e c))
  | 0x003 => w (s.course % 2 ^ 48)
  | 0x004 => s.takeWord
  | 0x005 => w (if isCru u then m.flask else 0)
  | 0x100 => w (2 * b2n m.inTrap + b2n m.ie)
  | 0x101 => w m.ecause
  | 0x102 => w (m.epc / 8 * 8 % 2 ^ 41)
  | 0x103 => w (m.eaddr % 2 ^ 41)
  | 0x104 => w (m.evec / 64 * 64 % 2 ^ 41)
  | 0x105 => (match u with | .cru _ => w 0 | .core e c => w (s.ipend (coreIx e c)).toNat)
  | 0x106 => w m.ien.toNat
  | 0x108 => (tblGet m.scratch 0 0, s)
  | 0x109 => (tblGet m.scratch 0 1, s)
  | 0x10A => (tblGet m.scratch 0 2, s)
  | 0x10B => (tblGet m.scratch 0 3, s)
  | _ => w 0

/-- A CSR's RW fields written (Table 6.4). -/
def Mki.csrWrite (m : Mki) (k : Nat) (v : Word) : Mki :=
  match k with
  | 0x100 => { m with ie := bitAt v 0 }
  | 0x102 => { m with epc := bitsOf v 3 38 * 8 }
  | 0x104 => { m with evec := bitsOf v 6 35 * 64 }
  | 0x106 => { m with ien := v.setWidth 32 }
  | 0x108 => { m with scratch := tblSet m.scratch 0 v }
  | 0x109 => { m with scratch := tblSet m.scratch 1 v }
  | 0x10A => { m with scratch := tblSet m.scratch 2 v }
  | 0x10B => { m with scratch := tblSet m.scratch 3 v }
  | _ => m

/-- Whether earlier instructions in MQ0, MQ1 and VQ have completed (R191). -/
def State.mathDrained (s : State) (u : MUnit) : Bool :=
  match u with
  | .cru n => let c := s.cru n.val; c.mq0.isEmpty && c.mq1.isEmpty && c.vq.isEmpty
  | .core _ _ => true

/-- A CSR instruction (R190). -/
def State.csrIns (s : State) (u : MUnit) (f : FmtE) (eff : State → Nat → State) : State :=
  let k := bitsOf f.imm 0 12
  if k = 0 ∧ !s.mathDrained u then s
  else s.front u f.g (f.sc != 0 || f.rsv || bitsOf f.imm 12 20 != 0) (isCru u && csrControl k) ⟨[f.a], []⟩ true
    (fun s => (eff s k).modMki u Mki.step)

/-- csrr (Table 8.4). -/
def execCsrr (u : MUnit) (f : FmtE) (s : State) : Host.Outcome State Fault Refusal :=
  .next (s.csrIns u f (fun s k => let (v, s1) := s.csrRead u k; s1.modMki u (fun m => m.setS f.a.toNat v)))

/-- csrw (Table 8.4). -/
def execCsrw (u : MUnit) (f : FmtE) (s : State) : Host.Outcome State Fault Refusal :=
  .next (s.csrIns u f (fun s k => s.modMki u (fun m => m.csrWrite k (m.sreg f.a.toNat))))

/-- csrs (Table 8.4). -/
def execCsrs (u : MUnit) (f : FmtE) (s : State) : Host.Outcome State Fault Refusal :=
  .next (s.csrIns u f (fun s k => s.modMki u (fun m => m.csrWrite k ((s.csrRead u k).1 ||| m.sreg f.a.toNat))))

/-- csrc (Table 8.4). -/
def execCsrc (u : MUnit) (f : FmtE) (s : State) : Host.Outcome State Fault Refusal :=
  .next (s.csrIns u f (fun s k => s.modMki u (fun m => m.csrWrite k ((s.csrRead u k).1 &&& ~~~(m.sreg f.a.toNat)))))

/-- fclr (Table 8.4, R191). -/
def execFclr (u : MUnit) (f : FmtE) (s : State) : Host.Outcome State Fault Refusal :=
  .next (if !s.mathDrained u then s
    else s.front u f.g (f.sc != 0 || f.rsv || f.a != 0 || bitsOf f.imm 6 26 != 0) false {} true
      (fun s => s.modMki u (fun m => { m.step with astat := m.astat &&& ~~~(f.imm.setWidth 6) })))

/-! ## END, BREAK, ERET, WFI (R192 to R194) -/

/-- end (R193): dispatch stops and the barrier begins; END_RETIRE ends it. -/
def execMkiEnd (u : MUnit) (f : FmtE) (s : State) : Host.Outcome State Fault Refusal :=
  .next (s.front u f.g (f.sc != 0 || f.rsv || f.a != 0 || bitsOf f.imm 16 16 != 0) (!isCru u) {} true
    (fun s => match u with
      | .cru n => s.modCru n.val (fun c => { c with seqw := .ending (bitsOf f.imm 0 16) })
      | .core _ _ => s))

/-- break (Table 8.5): the trap BREAK, recording IMM. -/
def execMkiBreak (u : MUnit) (f : FmtE) (s : State) : Host.Outcome State Fault Refusal :=
  .next (s.front u f.g (f.sc != 0 || f.rsv || f.a != 0) false {} true
    (fun s => s.unitTrap u .seq tBreak (s.mki u).pc f.imm.toNat))

/-- eret (R154). -/
def execEret (u : MUnit) (f : FmtE) (s : State) : Host.Outcome State Fault Refusal :=
  .next (s.front u f.g (f.sc != 0 || f.rsv || f.a != 0 || f.imm != 0) (isCru u) {} true (fun s => s.modMki u Mki.leave))

/-- wfi (R194): the core stops fetching until a line is set in both IPEND and IEN (State.coreWake); where one is set already, it
completes at once. -/
def execWfi (u : MUnit) (f : FmtE) (s : State) : Host.Outcome State Fault Refusal :=
  .next (s.front u f.g (f.sc != 0 || f.rsv || f.a != 0 || f.imm != 0) (isCru u) {} true
    (fun s => match u with
      | .core e c =>
        let i := coreIx e c
        let set := (s.ipend i &&& (s.mki u).ien) != 0
        (s.modMki u Mki.step).modCore i (fun k => { k with wfi := !set })
      | .cru _ => s))

/-- INTERRUPT_ACCEPT (R154): at an instruction boundary, with IE set and a line set in IPEND and IEN, the core enters its vector. -/
def execInterruptAccept (e c : Fin 4) (s : State) : Host.Outcome State Fault Refusal :=
  .next (
    let i := coreIx e c
    let k := s.core i
    if k.out && !k.stopped && k.wait == .none && k.mki.ie && (s.ipend i &&& k.mki.ien) != 0 then s.coreAccept i else s)

/-! ## Arithmetic, compares, predicates and branches -/

/-- add (Table 8.2). -/
def execAdd (u : MUnit) (f : FmtA) (s : State) : Host.Outcome State Fault Refusal :=
  .next (s.alu3 u f (fun a b => a + b))

/-- sub (Table 8.2). -/
def execSub (u : MUnit) (f : FmtA) (s : State) : Host.Outcome State Fault Refusal :=
  .next (s.alu3 u f (fun a b => a - b))

/-- and (Table 8.2). -/
def execAnd (u : MUnit) (f : FmtA) (s : State) : Host.Outcome State Fault Refusal :=
  .next (s.alu3 u f (fun a b => a &&& b))

/-- or (Table 8.2). -/
def execOr (u : MUnit) (f : FmtA) (s : State) : Host.Outcome State Fault Refusal :=
  .next (s.alu3 u f (fun a b => a ||| b))

/-- xor (Table 8.2). -/
def execXor (u : MUnit) (f : FmtA) (s : State) : Host.Outcome State Fault Refusal :=
  .next (s.alu3 u f (fun a b => a ^^^ b))

/-- shl (Table 8.2). -/
def execShl (u : MUnit) (f : FmtA) (s : State) : Host.Outcome State Fault Refusal :=
  .next (s.alu3 u f (fun a b => a <<< (b.toNat % 64)))

/-- shr (Table 8.2). -/
def execShr (u : MUnit) (f : FmtA) (s : State) : Host.Outcome State Fault Refusal :=
  .next (s.alu3 u f (fun a b => a >>> (b.toNat % 64)))

/-- sra (Table 8.2). -/
def execSra (u : MUnit) (f : FmtA) (s : State) : Host.Outcome State Fault Refusal :=
  .next (s.alu3 u f (fun a b => a.sshiftRight (b.toNat % 64)))

/-- min (Table 8.2). -/
def execMin (u : MUnit) (f : FmtA) (s : State) : Host.Outcome State Fault Refusal :=
  .next (s.alu3 u f (fun a b => if b.slt a then b else a))

/-- max (Table 8.2). -/
def execMax (u : MUnit) (f : FmtA) (s : State) : Host.Outcome State Fault Refusal :=
  .next (s.alu3 u f (fun a b => if a.slt b then b else a))

/-- minu (Table 8.2). -/
def execMinu (u : MUnit) (f : FmtA) (s : State) : Host.Outcome State Fault Refusal :=
  .next (s.alu3 u f (fun a b => if b < a then b else a))

/-- maxu (Table 8.2). -/
def execMaxu (u : MUnit) (f : FmtA) (s : State) : Host.Outcome State Fault Refusal :=
  .next (s.alu3 u f (fun a b => if a < b then b else a))

/-- clz (Table 8.2). -/
def execClz (u : MUnit) (f : FmtA) (s : State) : Host.Outcome State Fault Refusal :=
  .next (s.alu2 u f (fun a => BitVec.ofNat 64 (countLead 64 a.toNat)))

/-- ctz (Table 8.2). -/
def execCtz (u : MUnit) (f : FmtA) (s : State) : Host.Outcome State Fault Refusal :=
  .next (s.alu2 u f (fun a => BitVec.ofNat 64 (countTrail 64 a.toNat)))

/-- popc (Table 8.2). -/
def execPopc (u : MUnit) (f : FmtA) (s : State) : Host.Outcome State Fault Refusal :=
  .next (s.alu2 u f (fun a => BitVec.ofNat 64 (countOnes 64 a.toNat)))

/-- addi (Table 8.2): the operand is the sign-extended IMM. -/
def execAddi (u : MUnit) (f : FmtB) (s : State) : Host.Outcome State Fault Refusal :=
  .next (s.aluI u f (fun a b => a + b))

/-- subi (Table 8.2): the operand is the sign-extended IMM. -/
def execSubi (u : MUnit) (f : FmtB) (s : State) : Host.Outcome State Fault Refusal :=
  .next (s.aluI u f (fun a b => a - b))

/-- andi (Table 8.2): the operand is the sign-extended IMM. -/
def execAndi (u : MUnit) (f : FmtB) (s : State) : Host.Outcome State Fault Refusal :=
  .next (s.aluI u f (fun a b => a &&& b))

/-- ori (Table 8.2): the operand is the sign-extended IMM. -/
def execOri (u : MUnit) (f : FmtB) (s : State) : Host.Outcome State Fault Refusal :=
  .next (s.aluI u f (fun a b => a ||| b))

/-- xori (Table 8.2): the operand is the sign-extended IMM. -/
def execXori (u : MUnit) (f : FmtB) (s : State) : Host.Outcome State Fault Refusal :=
  .next (s.aluI u f (fun a b => a ^^^ b))

/-- shli (Table 8.2): the operand is the sign-extended IMM. -/
def execShli (u : MUnit) (f : FmtB) (s : State) : Host.Outcome State Fault Refusal :=
  .next (s.aluI u f (fun a b => a <<< (b.toNat % 64)))

/-- shri (Table 8.2): the operand is the sign-extended IMM. -/
def execShri (u : MUnit) (f : FmtB) (s : State) : Host.Outcome State Fault Refusal :=
  .next (s.aluI u f (fun a b => a >>> (b.toNat % 64)))

/-- srai (Table 8.2): the operand is the sign-extended IMM. -/
def execSrai (u : MUnit) (f : FmtB) (s : State) : Host.Outcome State Fault Refusal :=
  .next (s.aluI u f (fun a b => a.sshiftRight (b.toNat % 64)))

/-- mini (Table 8.2): the operand is the sign-extended IMM. -/
def execMini (u : MUnit) (f : FmtB) (s : State) : Host.Outcome State Fault Refusal :=
  .next (s.aluI u f (fun a b => if b.slt a then b else a))

/-- maxi (Table 8.2): the operand is the sign-extended IMM. -/
def execMaxi (u : MUnit) (f : FmtB) (s : State) : Host.Outcome State Fault Refusal :=
  .next (s.aluI u f (fun a b => if a.slt b then b else a))

/-- minui (Table 8.2): the operand is the sign-extended IMM. -/
def execMinui (u : MUnit) (f : FmtB) (s : State) : Host.Outcome State Fault Refusal :=
  .next (s.aluI u f (fun a b => if b < a then b else a))

/-- maxui (Table 8.2): the operand is the sign-extended IMM. -/
def execMaxui (u : MUnit) (f : FmtB) (s : State) : Host.Outcome State Fault Refusal :=
  .next (s.aluI u f (fun a b => if a < b then b else a))

/-- mul (Table 8.2). -/
def execMul (u : MUnit) (f : FmtA) (s : State) : Host.Outcome State Fault Refusal :=
  .next (s.alu3 u f (fun a b => a * b))

/-- mulh (Table 8.2). -/
def execMulh (u : MUnit) (f : FmtA) (s : State) : Host.Outcome State Fault Refusal :=
  .next (s.alu3 u f (fun a b => BitVec.ofInt 64 (a.toInt * b.toInt / 2 ^ 64)))

/-- mulhu (Table 8.2). -/
def execMulhu (u : MUnit) (f : FmtA) (s : State) : Host.Outcome State Fault Refusal :=
  .next (s.alu3 u f (fun a b => BitVec.ofNat 64 (a.toNat * b.toNat / 2 ^ 64)))

/-- div (Table 8.2, R186). -/
def execDiv (u : MUnit) (f : FmtA) (s : State) : Host.Outcome State Fault Refusal :=
  .next (s.alu3 u f (fun a b => if b = 0 then BitVec.allOnes 64 else BitVec.ofInt 64 (Int.tdiv a.toInt b.toInt)))

/-- divu (Table 8.2, R186). -/
def execDivu (u : MUnit) (f : FmtA) (s : State) : Host.Outcome State Fault Refusal :=
  .next (s.alu3 u f (fun a b => if b = 0 then BitVec.allOnes 64 else BitVec.ofNat 64 (a.toNat / b.toNat)))

/-- rem (Table 8.2, R186). -/
def execRem (u : MUnit) (f : FmtA) (s : State) : Host.Outcome State Fault Refusal :=
  .next (s.alu3 u f (fun a b => if b = 0 then a else BitVec.ofInt 64 (Int.tmod a.toInt b.toInt)))

/-- remu (Table 8.2, R186). -/
def execRemu (u : MUnit) (f : FmtA) (s : State) : Host.Outcome State Fault Refusal :=
  .next (s.alu3 u f (fun a b => if b = 0 then a else BitVec.ofNat 64 (a.toNat % b.toNat)))

/-- movi (Table 8.2). -/
def execMovi (u : MUnit) (f : FmtB) (s : State) : Host.Outcome State Fault Refusal :=
  .next (s.movIns u f (fun _ => f.imm.signExtend 64))

/-- movz (Table 8.2). -/
def execMovz (u : MUnit) (f : FmtB) (s : State) : Host.Outcome State Fault Refusal :=
  .next (s.movIns u f (fun _ => f.imm.setWidth 64))

/-- movhi (Table 8.2). -/
def execMovhi (u : MUnit) (f : FmtB) (s : State) : Host.Outcome State Fault Refusal :=
  .next (s.movIns u f (fun o => (f.imm.setWidth 64 <<< 32) ||| (o.setWidth 32).setWidth 64))

/-- ceq (Table 8.2). -/
def execCeq (u : MUnit) (f : FmtA) (s : State) : Host.Outcome State Fault Refusal :=
  .next (s.cmp3 u f (fun a b => a == b))

/-- cne (Table 8.2). -/
def execCne (u : MUnit) (f : FmtA) (s : State) : Host.Outcome State Fault Refusal :=
  .next (s.cmp3 u f (fun a b => a != b))

/-- clt (Table 8.2). -/
def execClt (u : MUnit) (f : FmtA) (s : State) : Host.Outcome State Fault Refusal :=
  .next (s.cmp3 u f (fun a b => a.slt b))

/-- cle (Table 8.2). -/
def execCle (u : MUnit) (f : FmtA) (s : State) : Host.Outcome State Fault Refusal :=
  .next (s.cmp3 u f (fun a b => a.sle b))

/-- cltu (Table 8.2). -/
def execCltu (u : MUnit) (f : FmtA) (s : State) : Host.Outcome State Fault Refusal :=
  .next (s.cmp3 u f (fun a b => a.ult b))

/-- cleu (Table 8.2). -/
def execCleu (u : MUnit) (f : FmtA) (s : State) : Host.Outcome State Fault Refusal :=
  .next (s.cmp3 u f (fun a b => a.ule b))

/-- ceqi (Table 8.2): the operand is the sign-extended IMM. -/
def execCeqi (u : MUnit) (f : FmtB) (s : State) : Host.Outcome State Fault Refusal :=
  .next (s.cmpI u f (fun a b => a == b))

/-- cnei (Table 8.2): the operand is the sign-extended IMM. -/
def execCnei (u : MUnit) (f : FmtB) (s : State) : Host.Outcome State Fault Refusal :=
  .next (s.cmpI u f (fun a b => a != b))

/-- clti (Table 8.2): the operand is the sign-extended IMM. -/
def execClti (u : MUnit) (f : FmtB) (s : State) : Host.Outcome State Fault Refusal :=
  .next (s.cmpI u f (fun a b => a.slt b))

/-- clei (Table 8.2): the operand is the sign-extended IMM. -/
def execClei (u : MUnit) (f : FmtB) (s : State) : Host.Outcome State Fault Refusal :=
  .next (s.cmpI u f (fun a b => a.sle b))

/-- cltui (Table 8.2): the operand is the sign-extended IMM. -/
def execCltui (u : MUnit) (f : FmtB) (s : State) : Host.Outcome State Fault Refusal :=
  .next (s.cmpI u f (fun a b => a.ult b))

/-- cleui (Table 8.2): the operand is the sign-extended IMM. -/
def execCleui (u : MUnit) (f : FmtB) (s : State) : Host.Outcome State Fault Refusal :=
  .next (s.cmpI u f (fun a b => a.ule b))

/-- pand (Table 8.2). -/
def execPand (u : MUnit) (f : FmtA) (s : State) : Host.Outcome State Fault Refusal :=
  .next (s.plog u f true (fun a b => a &&& b))

/-- por (Table 8.2). -/
def execPor (u : MUnit) (f : FmtA) (s : State) : Host.Outcome State Fault Refusal :=
  .next (s.plog u f true (fun a b => a ||| b))

/-- pxor (Table 8.2). -/
def execPxor (u : MUnit) (f : FmtA) (s : State) : Host.Outcome State Fault Refusal :=
  .next (s.plog u f true (fun a b => a ^^^ b))

/-- pnot (Table 8.2). -/
def execPnot (u : MUnit) (f : FmtA) (s : State) : Host.Outcome State Fault Refusal :=
  .next (s.plog u f false (fun a _ => ~~~a))

/-- pfroms (Table 8.2, R187). -/
def execPfroms (u : MUnit) (f : FmtA) (s : State) : Host.Outcome State Fault Refusal :=
  .next (s.scalar u f.g (resA f || f.b != 0 || !pOk f.d) ⟨[f.a], [f.d]⟩ (fun m => m.setP f.d.toNat (m.sreg f.a.toNat)))

/-- ptos (Table 8.2, R187). -/
def execPtos (u : MUnit) (f : FmtA) (s : State) : Host.Outcome State Fault Refusal :=
  .next (s.scalar u f.g (resA f || f.b != 0 || !pOk f.a) ⟨[f.d], [f.a]⟩ (fun m => m.setS f.d.toNat (m.preg f.a.toNat)))

/-- pcnt (Table 8.2). -/
def execPcnt (u : MUnit) (f : FmtA) (s : State) : Host.Outcome State Fault Refusal :=
  .next (s.scalar u f.g (resA f || f.b != 0 || !pOk f.a) ⟨[f.d], [f.a]⟩
    (fun m => m.setS f.d.toNat (BitVec.ofNat 64 (countOnes 64 (m.preg f.a.toNat).toNat))))

/-- br (Table 8.3). -/
def execBr (u : MUnit) (f : FmtB) (s : State) : Host.Outcome State Fault Refusal :=
  .next (s.branch u f (f.d != 0 || f.a != 0) ⟨[], []⟩ (fun m pc => { m with pc := relTarget pc f.imm }))

/-- call (Table 8.3). -/
def execCall (u : MUnit) (f : FmtB) (s : State) : Host.Outcome State Fault Refusal :=
  .next (s.branch u f (f.a != 0) ⟨[f.d], []⟩ (fun m pc => { m.setS f.d.toNat (BitVec.ofNat 64 (pc + 8)) with pc := relTarget pc f.imm }))

/-- jr (Table 8.3). -/
def execJr (u : MUnit) (f : FmtB) (s : State) : Host.Outcome State Fault Refusal :=
  .next (s.branch u f (f.d != 0) ⟨[f.a], []⟩ (fun m _ => { m with pc := absTarget (m.sreg f.a.toNat) f.imm }))

/-- jalr (Table 8.3). -/
def execJalr (u : MUnit) (f : FmtB) (s : State) : Host.Outcome State Fault Refusal :=
  .next (s.branch u f false ⟨[f.a, f.d], []⟩
    (fun m pc => { m.setS f.d.toNat (BitVec.ofNat 64 (pc + 8)) with pc := absTarget (m.sreg f.a.toNat) f.imm }))

/-- bnz (Table 8.3): a branch is taken when s[A] - 1 is not 0. -/
def execBnz (u : MUnit) (f : FmtB) (s : State) : Host.Outcome State Fault Refusal :=
  .next (s.branch u f (f.d != 0) ⟨[f.a], []⟩ (fun m pc =>
    { m.setS f.a.toNat (m.sreg f.a.toNat - 1) with pc := if m.sreg f.a.toNat - 1 = 0 then pc + 8 else relTarget pc f.imm }))

end Sys2Proof.Machine
end

