-- ==== Sys2Proof/Machine/MkiVector.lean ====
section
/-! DEFINITION. The tile and vector instructions of MKI: what each reads at dispatch, its static checks, and the queue it runs in
(R156, R159, R162 to R165, R172 to R182). -/

namespace Sys2Proof.Machine

open Sys2Proof

/-- A tile instruction placed in the queue of its MU; `ops` are the s registers it reads. -/
def State.tile (s : State) (u : MUnit) (f : FmtD) (bad : Bool) (ops : List (BitVec 6)) (ins : Instr) : State :=
  s.place u f.g (muQ f.mu) bad ⟨ops, []⟩ true (fun m => ops.map (fun r => m.sreg r.toNat)) [] [] ins

/-- A vector instruction of format A placed in VQ; `ops` are the s registers it reads, `ws` and `wp` the s and p registers it writes. -/
def State.vec (s : State) (u : MUnit) (f : FmtA) (bad : Bool) (ops ws wp : List (BitVec 6)) (ins : Instr) : State :=
  s.place u f.g .vq bad ⟨ops ++ ws, wp⟩ false (fun m => ops.map (fun r => m.sreg r.toNat)) (ws.map (·.toNat)) (wp.map (·.toNat)) ins

/-- A vector instruction of format C placed in VQ. -/
def State.vecMould (s : State) (u : MUnit) (f : FmtC) (ins : Instr) : State :=
  s.place u f.g .vq (badVM f) ⟨[f.base, f.idx], []⟩ false (fun m => [m.sreg f.base.toNat, m.sreg f.idx.toNat]) [] [] ins

/-- mma (R159). -/
def execMma (u : MUnit) (f : FmtD) (s : State) : Host.Outcome State Fault Refusal :=
  .next (s.tile u f (badMma f) [f.sa, f.sb, f.sx] (.mma u f))

/-- tclr (R162). -/
def execTclr (u : MUnit) (f : FmtD) (s : State) : Host.Outcome State Fault Refusal :=
  .next (s.tile u f (badD f false false false false false) [] (.tclr u f))

/-- trow (R163). -/
def execTrow (u : MUnit) (f : FmtD) (s : State) : Host.Outcome State Fault Refusal :=
  .next (s.tile u f (badD f true true false false false) [f.sa, f.sb] (.trow u f))

/-- ttr (R162). -/
def execTtr (u : MUnit) (f : FmtD) (s : State) : Host.Outcome State Fault Refusal :=
  .next (s.tile u f (badD f false false false false false) [] (.ttr u f))

/-- tsclC (R164). -/
def execTsclC (u : MUnit) (f : FmtD) (s : State) : Host.Outcome State Fault Refusal :=
  .next (s.tile u f (badTscl f) [f.sa] (.tsclC u f))

/-- tsclR (R164). -/
def execTsclR (u : MUnit) (f : FmtD) (s : State) : Host.Outcome State Fault Refusal :=
  .next (s.tile u f (badTscl f) [f.sa] (.tsclR u f))

/-- tld (R162). -/
def execTld (u : MUnit) (f : FmtD) (s : State) : Host.Outcome State Fault Refusal :=
  .next (s.tile u f (badD f true false true false false) [f.sa, f.sx] (.tld u f))

/-- tst (R165). -/
def execTst (u : MUnit) (f : FmtD) (s : State) : Host.Outcome State Fault Refusal :=
  .next (s.tile u f (badTst f) [f.sa, f.sx] (.tst u f))

/-- vaddF32 (R172). -/
def execVaddF32 (u : MUnit) (f : FmtA) (s : State) : Host.Outcome State Fault Refusal :=
  .next (s.vec u f (badV f [0] true true true false) [] [] [] (.vaddF32 u f))

/-- vsubF32 (R172). -/
def execVsubF32 (u : MUnit) (f : FmtA) (s : State) : Host.Outcome State Fault Refusal :=
  .next (s.vec u f (badV f [0] true true true false) [] [] [] (.vsubF32 u f))

/-- vmulF32 (R172). -/
def execVmulF32 (u : MUnit) (f : FmtA) (s : State) : Host.Outcome State Fault Refusal :=
  .next (s.vec u f (badV f [0] true true true false) [] [] [] (.vmulF32 u f))

/-- vfmaF32 (R172). -/
def execVfmaF32 (u : MUnit) (f : FmtA) (s : State) : Host.Outcome State Fault Refusal :=
  .next (s.vec u f (badV f [0] true true true true) [] [] [] (.vfmaF32 u f))

/-- vfnmaF32 (R172). -/
def execVfnmaF32 (u : MUnit) (f : FmtA) (s : State) : Host.Outcome State Fault Refusal :=
  .next (s.vec u f (badV f [0] true true true true) [] [] [] (.vfnmaF32 u f))

/-- vminF32 (R125). -/
def execVminF32 (u : MUnit) (f : FmtA) (s : State) : Host.Outcome State Fault Refusal :=
  .next (s.vec u f (badV f [0] false true true false) [] [] [] (.vminF32 u f))

/-- vmaxF32 (R125). -/
def execVmaxF32 (u : MUnit) (f : FmtA) (s : State) : Host.Outcome State Fault Refusal :=
  .next (s.vec u f (badV f [0] false true true false) [] [] [] (.vmaxF32 u f))

/-- vabsF32 (R172). -/
def execVabsF32 (u : MUnit) (f : FmtA) (s : State) : Host.Outcome State Fault Refusal :=
  .next (s.vec u f (badV f [0] false true false false) [] [] [] (.vabsF32 u f))

/-- vnegF32 (R172). -/
def execVnegF32 (u : MUnit) (f : FmtA) (s : State) : Host.Outcome State Fault Refusal :=
  .next (s.vec u f (badV f [0] false true false false) [] [] [] (.vnegF32 u f))

/-- vadd (R127). -/
def execVadd (u : MUnit) (f : FmtA) (s : State) : Host.Outcome State Fault Refusal :=
  .next (s.vec u f (badV f [8, 9, 10] false true true false) [] [] [] (.vadd u f))

/-- vsub (R127). -/
def execVsub (u : MUnit) (f : FmtA) (s : State) : Host.Outcome State Fault Refusal :=
  .next (s.vec u f (badV f [8, 9, 10] false true true false) [] [] [] (.vsub u f))

/-- vmul (R127). -/
def execVmul (u : MUnit) (f : FmtA) (s : State) : Host.Outcome State Fault Refusal :=
  .next (s.vec u f (badV f [8, 9, 10] false true true false) [] [] [] (.vmul u f))

/-- vadds (R172). -/
def execVadds (u : MUnit) (f : FmtA) (s : State) : Host.Outcome State Fault Refusal :=
  .next (s.vec u f (badV f [8, 9] false true true false) [] [] [] (.vadds u f))

/-- vsubs (R172). -/
def execVsubs (u : MUnit) (f : FmtA) (s : State) : Host.Outcome State Fault Refusal :=
  .next (s.vec u f (badV f [8, 9] false true true false) [] [] [] (.vsubs u f))

/-- vmin (R172). -/
def execVmin (u : MUnit) (f : FmtA) (s : State) : Host.Outcome State Fault Refusal :=
  .next (s.vec u f (badV f [8, 9, 10] false true true false) [] [] [] (.vmin u f))

/-- vmax (R172). -/
def execVmax (u : MUnit) (f : FmtA) (s : State) : Host.Outcome State Fault Refusal :=
  .next (s.vec u f (badV f [8, 9, 10] false true true false) [] [] [] (.vmax u f))

/-- vand (R172). -/
def execVand (u : MUnit) (f : FmtA) (s : State) : Host.Outcome State Fault Refusal :=
  .next (s.vec u f (badV f [8, 9, 10] false true true false) [] [] [] (.vand u f))

/-- vor (R172). -/
def execVor (u : MUnit) (f : FmtA) (s : State) : Host.Outcome State Fault Refusal :=
  .next (s.vec u f (badV f [8, 9, 10] false true true false) [] [] [] (.vor u f))

/-- vxor (R172). -/
def execVxor (u : MUnit) (f : FmtA) (s : State) : Host.Outcome State Fault Refusal :=
  .next (s.vec u f (badV f [8, 9, 10] false true true false) [] [] [] (.vxor u f))

/-- vshl (R172). -/
def execVshl (u : MUnit) (f : FmtA) (s : State) : Host.Outcome State Fault Refusal :=
  .next (s.vec u f (badV f [8, 9, 10] false true true false) [] [] [] (.vshl u f))

/-- vshr (R172). -/
def execVshr (u : MUnit) (f : FmtA) (s : State) : Host.Outcome State Fault Refusal :=
  .next (s.vec u f (badV f [8, 9, 10] false true true false) [] [] [] (.vshr u f))

/-- vsra (R172). -/
def execVsra (u : MUnit) (f : FmtA) (s : State) : Host.Outcome State Fault Refusal :=
  .next (s.vec u f (badV f [8, 9, 10] false true true false) [] [] [] (.vsra u f))

/-- vceq (R126). -/
def execVceq (u : MUnit) (f : FmtA) (s : State) : Host.Outcome State Fault Refusal :=
  .next (s.vec u f (badV f [0, 10] false true true false || !pOk f.d) [] [] [f.d] (.vceq u f))

/-- vcne (R126). -/
def execVcne (u : MUnit) (f : FmtA) (s : State) : Host.Outcome State Fault Refusal :=
  .next (s.vec u f (badV f [0, 10] false true true false || !pOk f.d) [] [] [f.d] (.vcne u f))

/-- vclt (R126). -/
def execVclt (u : MUnit) (f : FmtA) (s : State) : Host.Outcome State Fault Refusal :=
  .next (s.vec u f (badV f [0, 10] false true true false || !pOk f.d) [] [] [f.d] (.vclt u f))

/-- vcle (R126). -/
def execVcle (u : MUnit) (f : FmtA) (s : State) : Host.Outcome State Fault Refusal :=
  .next (s.vec u f (badV f [0, 10] false true true false || !pOk f.d) [] [] [f.d] (.vcle u f))

/-- vcgt (R126). -/
def execVcgt (u : MUnit) (f : FmtA) (s : State) : Host.Outcome State Fault Refusal :=
  .next (s.vec u f (badV f [0, 10] false true true false || !pOk f.d) [] [] [f.d] (.vcgt u f))

/-- vcge (R126). -/
def execVcge (u : MUnit) (f : FmtA) (s : State) : Host.Outcome State Fault Refusal :=
  .next (s.vec u f (badV f [0, 10] false true true false || !pOk f.d) [] [] [f.d] (.vcge u f))

/-- vsel (R172; p[C] is read at dispatch). -/
def execVsel (u : MUnit) (f : FmtA) (s : State) : Host.Outcome State Fault Refusal :=
  .next (s.place u f.g .vq (badV f [0] false true true true || !pOk f.c) ⟨[], [f.c]⟩ false (fun m => [m.preg f.c.toNat]) [] [] (.vsel u f))

/-- vbcast (R172). -/
def execVbcast (u : MUnit) (f : FmtA) (s : State) : Host.Outcome State Fault Refusal :=
  .next (s.vec u f (badV f [8, 9, 10] false true false false) [f.a] [] [] (.vbcast u f))

/-- vins (R172). -/
def execVins (u : MUnit) (f : FmtA) (s : State) : Host.Outcome State Fault Refusal :=
  .next (s.vec u f (badV f [10] false true true false) [f.a, f.b] [] [] (.vins u f))

/-- vext (R172). -/
def execVext (u : MUnit) (f : FmtA) (s : State) : Host.Outcome State Fault Refusal :=
  .next (s.vec u f (badV f [10] false true true false) [f.b] [f.d] [] (.vext u f))

/-- vrsumF32 (R173). -/
def execVrsumF32 (u : MUnit) (f : FmtA) (s : State) : Host.Outcome State Fault Refusal :=
  .next (s.vec u f (badV f [0] false true false false) [] [f.d] [] (.vrsumF32 u f))

/-- vrmaxF32 (R173). -/
def execVrmaxF32 (u : MUnit) (f : FmtA) (s : State) : Host.Outcome State Fault Refusal :=
  .next (s.vec u f (badV f [0] false true false false) [] [f.d] [] (.vrmaxF32 u f))

/-- vseed (R117). -/
def execVseed (u : MUnit) (f : FmtA) (s : State) : Host.Outcome State Fault Refusal :=
  .next (s.vec u f (badV f [0] false true false false || f.d != 0) [f.a] [] [] (.vseed u f))

/-- vcvt (R174, R175). -/
def execVcvt (u : MUnit) (f : FmtA) (fn : BitVec 10) (s : State) : Host.Outcome State Fault Refusal :=
  .next (s.vec u f (badCvt f fn) [f.c] [] [] (.vcvt u f fn))

/-- vqmx (R176, R178). -/
def execVqmx (u : MUnit) (f : FmtA) (s : State) : Host.Outcome State Fault Refusal :=
  .next (s.vec u f (badQmx f) [f.c] [] [] (.vqmx u f))

/-- vdqmx (R177, R178). -/
def execVdqmx (u : MUnit) (f : FmtA) (s : State) : Host.Outcome State Fault Refusal :=
  .next (s.vec u f (badDqmx f) [f.c] [] [] (.vdqmx u f))

/-- vld (R180). -/
def execVld (u : MUnit) (f : FmtC) (s : State) : Host.Outcome State Fault Refusal :=
  .next (s.vecMould u f (.vld u f))

/-- vst (R181). -/
def execVst (u : MUnit) (f : FmtC) (s : State) : Host.Outcome State Fault Refusal :=
  .next (s.vecMould u f (.vst u f))

/-- vperm (R180). -/
def execVperm (u : MUnit) (f : FmtC) (s : State) : Host.Outcome State Fault Refusal :=
  .next (s.vecMould u f (.vperm u f))

/-- vpermB (R180). -/
def execVpermB (u : MUnit) (f : FmtC) (s : State) : Host.Outcome State Fault Refusal :=
  .next (s.vecMould u f (.vpermB u f))

/-- vrcpF32 (R182). -/
def execVrcpF32 (u : MUnit) (f : FmtA) (s : State) : Host.Outcome State Fault Refusal :=
  .next (s.vec u f (badV f [0] false true false false) [] [] [] (.vrcpF32 u f))

/-- vrsqrtF32 (R182). -/
def execVrsqrtF32 (u : MUnit) (f : FmtA) (s : State) : Host.Outcome State Fault Refusal :=
  .next (s.vec u f (badV f [0] false true false false) [] [] [] (.vrsqrtF32 u f))

/-- vsqrtF32 (R182). -/
def execVsqrtF32 (u : MUnit) (f : FmtA) (s : State) : Host.Outcome State Fault Refusal :=
  .next (s.vec u f (badV f [0] false true false false) [] [] [] (.vsqrtF32 u f))

/-- vexp2F32 (R182). -/
def execVexp2F32 (u : MUnit) (f : FmtA) (s : State) : Host.Outcome State Fault Refusal :=
  .next (s.vec u f (badV f [0] false true false false) [] [] [] (.vexp2F32 u f))

/-- vexpF32 (R182). -/
def execVexpF32 (u : MUnit) (f : FmtA) (s : State) : Host.Outcome State Fault Refusal :=
  .next (s.vec u f (badV f [0] false true false false) [] [] [] (.vexpF32 u f))

/-- vlog2F32 (R182). -/
def execVlog2F32 (u : MUnit) (f : FmtA) (s : State) : Host.Outcome State Fault Refusal :=
  .next (s.vec u f (badV f [0] false true false false) [] [] [] (.vlog2F32 u f))

/-- vlnF32 (R182). -/
def execVlnF32 (u : MUnit) (f : FmtA) (s : State) : Host.Outcome State Fault Refusal :=
  .next (s.vec u f (badV f [0] false true false false) [] [] [] (.vlnF32 u f))

/-- vsinF32 (R182). -/
def execVsinF32 (u : MUnit) (f : FmtA) (s : State) : Host.Outcome State Fault Refusal :=
  .next (s.vec u f (badV f [0] false true false false) [] [] [] (.vsinF32 u f))

/-- vcosF32 (R182). -/
def execVcosF32 (u : MUnit) (f : FmtA) (s : State) : Host.Outcome State Fault Refusal :=
  .next (s.vec u f (badV f [0] false true false false) [] [] [] (.vcosF32 u f))

/-- vtanhF32 (R182). -/
def execVtanhF32 (u : MUnit) (f : FmtA) (s : State) : Host.Outcome State Fault Refusal :=
  .next (s.vec u f (badV f [0] false true false false) [] [] [] (.vtanhF32 u f))

/-- vsigmoidF32 (R182). -/
def execVsigmoidF32 (u : MUnit) (f : FmtA) (s : State) : Host.Outcome State Fault Refusal :=
  .next (s.vec u f (badV f [0] false true false false) [] [] [] (.vsigmoidF32 u f))

end Sys2Proof.Machine
end

