-- ==== Sys2Proof/Machine/RegWrite.lean ====
section
/-! DEFINITION. Register writes (chapter 02, R568): who writes where, the pages, the write shadows, course-applied values, what the write
of each command field does, and the rows of register access, of device stores (R197) and of the test access ports (R581, R582). -/

namespace Sys2Proof.Machine

open Sys2Proof

/-! ## Who writes where (R568, Tables 26.3 and 26.4) -/

/-- What a control core of a dormant quoin writes (Table 26.3). -/
def dormantWrites (w : Win) (o : Nat) : Bool := w == .qn && [0x30004, 0x3000C, 0x3001C, 0x30020].contains o

/-- What host domain h writes: its mailbox (R491), its queue page (R444) and its cursor (R531). -/
def hostWrites (h : Nat) (w : Win) (o : Nat) : Bool :=
  match w with
  | .qn => o == 0x400000 + 0x4000 * h || (0x400000 + 0x4000 * h + 0x100 ≤ o && o < 0x400000 + 0x4000 * h + 0x200)
  | .gt g => g == h / 16 && 0x40000 + 0x4000 * (h % 16) ≤ o && o < 0x44000 + 0x4000 * (h % 16)
  | .ml => o == 0x20 || o == 0x24
  | _ => false

/-- What the SMBus management port writes. -/
def smbusWrites (w : Win) (o : Nat) : Bool :=
  match w with
  | .ft => o == 8
  | .ml => [0, 0x20, 0x24, 0x28, 0x2C].contains o
  | .qn => o == 0x38000
  | _ => false

/-- The words that hold a command field (WO), or a value that a write reaches in a way of its own. -/
def woWord (w : Win) (o : Nat) : Bool :=
  o == 0xFF8 || o == 0xFFC ||
  (match w with
  | .qn => [0x30004, 0x3000C, 0x3001C, 0x30020, 0x38000].contains o
  | .cr _ => o == 4 || o == 0x4018
  | .ks _ => o == 0xC480 || o == 0xC600
  | .gt _ => 0x40000 ≤ o && o < 0x80000 && o % 0x4000 < 0x400 && o % 0x40 == 0x14
  | .ft => o == 0 || o == 0x20 || o == 0x24
  | _ => false)

/-- A word of a window has a field that can be written. -/
def writableWord (w : Win) (o : Nat) : Bool := (regKind w o).rw != 0 || (regKind w o).rwc != 0 || woWord w o

/-- Whether a requester's write is accepted at a word (R568). Every unit is held in reset outside service and bring-up but for the Drain
phase, and a host's access waits at the gate while it withholds credits (R555). -/
def State.accepts (s : State) (r : Requester) (w : Win) (o : Nat) : Bool :=
  (s.rst.phase == .none || (match s.rst.phase with | .drain _ _ => true | _ => false)) && !s.hidden w o &&
  (match r with
  | .core e _ => hasE s.build e.val && (e.val == s.active || dormantWrites w o)
  | .hd h => !s.ioHeld && hostWrites h.val w o
  | .cru _ => false
  | .smbus => smbusWrites w o
  | .test => smbusWrites w o || (w == .ft && (o == 0x20 || o == 0x24)))

/-! ## Fields (Table 2.1, R39, R41) -/

/-- The RW and RWC fields of the word at a block address written through a page: RWC fields go to the buffered value while courses run. A
class that a register write of QN_PLACEMENT changes is no longer that of a Set Region Placement (R265). DESIGN CHOICE (log entry 99):
between the write of a free start and its first boundary RUNNING reads 0, and the RWC fields act as RW fields do. -/
def State.putRw (s : State) (a : Nat) (p : Page) (d : Reg) : State :=
  let k := kindAt a
  let s1 := if k.rw = 0 then s else s.setReg a (pageWrite p (s.reg a) d k.rw)
  if k.rwc = 0 then s1
  else if s.tb.running then
    let old := tblGet s1.rwcBuf (s1.reg a) a
    let new := pageWrite p old d k.rwc
    { s1 with rwcBuf := tblSet s1.rwcBuf a new,
              placeFm := if a = 0x24008 then s1.placeFm.filter (fun i => old.getLsbD i == new.getLsbD i) else s1.placeFm }
  else s1.rwcPut a (pageWrite p (s1.reg a) d k.rwc)

/-- CANCEL (Table 2.2): the block's buffered values are discarded. -/
def State.rwcCancel (s : State) (w : Win) : State :=
  { s with rwcBuf := s.rwcBuf.filter (fun e => (winOf e.1).map (·.1) != some w), placeFm := if w = .qn then [] else s.placeFm }

/-- A control core's quoin and number. -/
def coreOf : Requester → Nat × Nat
  | .core e c => (e.val, c.val)
  | _ => (0, 0)

/-! ## Words of up to 32 bits -/

/-- A word of the quoin block. -/
def State.writeQn (s : State) (r : Requester) (o : Nat) (p : Page) (d : Reg) : State :=
  let (e, c) := coreOf r
  let wo (t : State) : State := if p = .base then t else s
  if 0x400000 ≤ o then
    let s1 := s.putRw o p d
    if o % 0x4000 = 0 ∧ p = .base ∧ d.getLsbD 31 = true then s1.mailGo ((o - 0x400000) / 0x4000) else s1
  else match o with
  | 0x20000 =>
    let s1 := s.putRw o p d
    if s.fld o 0 1 = 1 ∧ !s.pours.isEmpty then s1.setFld o 0 1 1 else s1
  | 0x30004 => wo (s.beat e c d)
  | 0x30008 =>
    let s1 := s.putRw (s.own r o) p d
    if p = .base ∧ bitsOf d 0 4 = 1 then s1.handoverCmd r else s1
  | 0x3000C => wo (s.coreRelease e c d)
  | 0x3001C => wo (s.ipiRaise e c d)
  | 0x30020 => wo (s.ipiClear e c d)
  | 0x38000 => wo (s.resetCommand r d)
  | _ => s.putRw o p d

/-- Commands by code (Table 4.5). -/
def cruCmdOf : Nat → Option CruCmd
  | 1 => some .start | 2 => some .stop | 3 => some .resume | 4 => some .abort | 5 => some .reset | 6 => some .standby
  | 7 => some .wake | 8 => some .retire | _ => none

/-- A word of a crucible's window. -/
def State.writeCr (s : State) (r : Requester) (n o : Nat) (p : Page) (d : Reg) : State :=
  match o with
  | 4 =>
    if p ≠ .base then s
    else match cruCmdOf (bitsOf d 0 4) with
    | some k => s.cruWrite r n k
    | none => s.cruReject n
  | 0x4018 => if p = .base then s.rangeCmd r n (bitsOf d 0 4) else s
  | _ => s.putRw (aCr n o) p d

/-- The status of a raw read that no row of the memory port gives: a free one (log entry 1). -/
def State.takeStatus (s : State) : PortStatus × State :=
  let (n, s1) := s.takeNat
  (match n % 4 with | 0 => .ok | 1 => .ce | 2 => .ceErasure | _ => .ue, s1)

/-- A word of a keystone's window. -/
def State.writeKs (s : State) (r : Requester) (k o : Nat) (p : Page) (d : Reg) : State :=
  match o with
  | 0xC000 =>
    let s1 := s.putRw (aKs k o) p d
    let s2 := if s.fld (aKs k o) 0 1 = 0 ∧ s.mapErr k = true then s1.setFld (aKs k o) 0 1 0 else s1
    if s2.fld (aKs k o) 0 1 = 1 then s2.homeRun k else s2
  | 0xC480 => if p = .base ∧ d.getLsbD 31 = true then s.logClear r k else s
  | 0xC510 =>
    let s1 := s.putRw (aKs k o) p d
    if p ≠ .base then s1
    else match bitsOf d 28 4 with
    | 1 => s1.scrubStart r k
    | 2 => s1.scrubStop r k
    | _ => s1
  | 0xC518 => (s.putRw (aKs k o) p d).note (.ks k)
  | 0xC600 =>
    if p ≠ .base then s
    else match bitsOf d 28 4 with
    | 0 => s
    | 1 => s.wrRaw r k
    | 2 => let (st, s1) := s.takeStatus; s1.rdRaw r k st
    | _ => s.testRefused k
  | _ => s.putRw (aKs k o) p d

/-- A word of a gate's window. -/
def State.writeGt (s : State) (r : Requester) (g o : Nat) (p : Page) (d : Reg) : State :=
  if 0x40000 ≤ o ∧ o < 0x80000 then
    let l := (o - 0x40000) / 0x4000
    let i := o % 0x4000
    let q := 256 * g + 16 * l + i / 0x40
    if i < 0x400 then
      (if i % 0x40 = 0x14 then
        (if p ≠ .base then s
         else match bitsOf d 0 4 with
         | 1 => s.queueEnable r q
         | 2 => s.queueDisable r q
         | 3 => s.queueResume r q
         | _ => s.qIgnore q)
       else if i % 0x40 = 0x10 ∧ (s.hq q).st ≠ .disabled then s
       else s.putRw (aGt g o) p d)
    else if i = 0x408 then s.nqCfg r (16 * g + l) p d
    else s.putRw (aGt g o) p d
  else if o = 0x8004 then s.slotCtrl r g p d
  else s.putRw (aGt g o) p d

/-- A word of the course and timebase window. -/
def State.writeCo (s : State) (r : Requester) (o : Nat) (p : Page) (d : Reg) : State :=
  match o with
  | 0 => s.tbWrite r p d
  | 0x28 =>
    let s1 := s.putRw (aCo o) p d
    if s.tb.starting || s.tb.running || s1.period < 62500 || 1000000 < s1.period then s else s1
  | _ => s.putRw (aCo o) p d

/-- A word of the mark-log window. -/
def State.writeMl (s : State) (o : Nat) (p : Page) (d : Reg) : State :=
  let s1 := s.putRw (aMl o) p d
  if o ≠ 0 ∨ p ≠ .base then s1
  else match bitsOf d 0 2 with
  | 1 => s1.mlFreeze
  | 2 => s1.mlThaw
  | 3 => s1.mlClear
  | _ => s1

/-- A word that is no part of a wider value, written through a page. -/
def State.writeWord (s : State) (r : Requester) (w : Win) (o : Nat) (p : Page) (d : Reg) : State :=
  if o = 0xFF4 then (s.putRw (winBase w + o) p d).note w
  else if o = 0xFF8 then (if p = .base ∧ d.getLsbD 0 = true then s.rearm w else s)
  else if o = 0xFFC then (if p = .base ∧ d.getLsbD 31 = true then s.rwcCancel w else s)
  else match w with
  | .qn => s.writeQn r o p d
  | .cr n => s.writeCr r n o p d
  | .ks k => s.writeKs r k o p d
  | .gt g => s.writeGt r g o p d
  | .ld => s.putRw (aLd o) p d
  | .sp =>
    if 0x100000 ≤ o then s.spRoute r ((o - 0x100000) / 0x10000) ((o % 0x10000 - 0x4000) / 4) p d else s.putRw (aSp o) p d
  | .co => s.writeCo r o p d
  | .ft => if o = 0 then (if p = .base ∧ bitsOf d 0 4 = 1 then s.clearFirst r else s) else if o = 8 then s.ftPin r p d else s.putRw (aFt o) p d
  | .ml => s.writeMl o p d

/-! ## Wider values (R34 to R36) -/

/-- The words of a wider value written: the number of each in the value, its data and its page. -/
abbrev Parts := List (Nat × Reg × Page)

/-- The RW fields of the words written. -/
def State.putParts (s : State) (base : Nat) (ws : Parts) : State := ws.foldl (fun s e => s.putRw (base + 4 * e.1) e.2.2 e.2.1) s

/-- A 64-bit value with the words written. -/
def partsOn (v : Word) (ws : Parts) : Word :=
  ws.foldl (fun v e => setBits v (32 * e.1) 32 (pageWrite e.2.2 (BitVec.ofNat 32 (bitsOf v (32 * e.1) 32)) e.2.1 0xFFFFFFFF).toNat) v

/-- A value of more than 32 bits whose lowest word stands at offset o, written in one indivisible step. -/
def State.writeWide (s : State) (r : Requester) (w : Win) (o : Nat) (ws : Parts) : State :=
  match w with
  | .ft =>
    if o = 0x20 then s.ftForce r (partsOn 0 (ws.filter (fun e => e.2.2 == .base)))
    else s.ftQHead r (partsOn (BitVec.ofNat 64 (s.reg64 (aFt o))) ws)
  | .ml =>
    if o = 0x20 then s.modReq r (fun q => { q with cursor := partsOn q.cursor ws }) else (s.putParts (aMl o) ws).note .ml
  | .ks k => if 0xC100 ≤ o ∧ o < 0xC140 ∧ s.fld (aKs k 0xC000) 0 1 = 1 then s else s.putParts (aKs k o) ws
  | .gt g =>
    let l := (o - 0x40000) / 0x4000
    let i := o % 0x4000
    if i < 0x400 then (if (s.hq (256 * g + 16 * l + i / 0x40)).st = .disabled then s.putParts (aGt g o) ws else s)
    else if s.fld (nqReg (16 * g + l) 0x408) 8 1 = 1 then s
    else s.putParts (aGt g o) ws
  | .qn =>
    if (o = 0x20008 ∨ o = 0x20010) ∧ s.fld 0x20000 0 1 = 1 then s
    else s.putParts (if o = 0x30010 then s.own r o else o) ws
  | _ => s.putParts (winBase w + o) ws

/-- Words below the highest go into the requester's write shadow, in place of another value's. -/
def State.shadowPut (s : State) (r : Requester) (base : Nat) (ws : Parts) : State :=
  s.modReq r (fun q =>
    let old : Tbl (Reg × Page) := match q.wr with | some sh => if sh.base = base then sh.words else [] | none => []
    { q with wr := some ⟨base, ws.foldl (fun t e => tblSet t e.1 e.2) old⟩ })

/-- What the shadow holds of a value, taken out of it. -/
def State.shadowTake (s : State) (r : Requester) (base : Nat) : Parts × State :=
  match (s.req r).wr with
  | some sh => if sh.base = base then (sh.words, s.modReq r (fun q => { q with wr := none })) else ([], s)
  | none => ([], s)

/-- Words of a value of n words, from word i on, written by one access. -/
def State.writeParts (s : State) (r : Requester) (w : Win) (o n : Nat) (ws : Parts) : State :=
  if ws.any (fun e => e.1 + 1 == n) then
    (if ws.length = n then s.writeWide r w o ws
     else
      let (low, s1) := s.shadowTake r (winBase w + o)
      s1.writeWide r w o (low.filter (fun e => !ws.any (fun x => x.1 == e.1)) ++ ws))
  else s.shadowPut r (winBase w + o) ws

/-- An access of 32 bits. DESIGN CHOICE (log entry 83): a low-word write of a wide value that is read-only, or that the requester may not
write, is a refused write and leaves the write shadow as it is. -/
def State.write4 (s : State) (r : Requester) (a : Nat) (d : Reg) : State :=
  match winOf (pageBase a) with
  | none => s
  | some (w, o) =>
    let (lo, n) := wideOf w o
    if !s.accepts r w o then s
    else if n = 1 then (if writableWord w o then s.writeWord r w o (pageOf a) d else s)
    else if (List.range n).any (fun i => writableWord w (lo + 4 * i)) then s.writeParts r w lo n [((o - lo) / 4, d, pageOf a)]
    else s

/-- An access of 64 bits: both words in one indivisible step (R35, R36). -/
def State.write8 (s : State) (r : Requester) (a : Nat) (d : Word) : State :=
  match winOf (pageBase a) with
  | none => s
  | some (w, o) =>
    let (lo, n) := wideOf w o
    if n = 1 then (s.write4 r a (d.setWidth 32)).write4 r (a + 4) ((d >>> 32).setWidth 32)
    else if s.accepts r w o && (List.range n).any (fun i => writableWord w (lo + 4 * i)) then
      s.writeParts r w lo n [((o - lo) / 4, d.setWidth 32, pageOf a), ((o - lo) / 4 + 1, (d >>> 32).setWidth 32, pageOf a)]
    else s

/-- A register write (R26 to R29, R34 to R36, R39, R568). A write of fewer than 32 bits and a misaligned one change nothing. -/
def State.regWrite (s : State) (r : Requester) (a : Nat) (sz : AccSize) (d : Word) : State :=
  if hostOwn r a then s.hostOwnWrite r a sz d
  else match sz with
  | .b4 => if a % 4 = 0 then s.write4 r a (d.setWidth 32) else s
  | .b8 => if a % 8 = 0 then s.write8 r a d else s
  | _ => s

/-- A register read whose value the requester gets; a host's read waits while the gate withholds credits (R555). -/
def State.readOut (s : State) (r : Requester) (a : Nat) (sz : AccSize) : State :=
  let waits : Bool := match r with | .hd _ => s.ioHeld | _ => false
  if waits then s
  else if hostOwn r a then s.modReq r (fun q => { q with out := s.hostOwnRead r a sz })
  else
    let (v, s1) := s.regRead r a sz
    s1.modReq r (fun q => { q with out := v })

/-! ## The rows -/

/-- REGISTER_WRITE (R26, R27). -/
def execRegisterWrite (r : Requester) (a : BitVec 32) (sz : AccSize) (d : Word) (s : State) : Host.Outcome State Fault Refusal :=
  .next (s.regWrite r a.toNat sz d)

/-- RWC_WRITE (R39). -/
def execRwcWrite (r : Requester) (a : BitVec 32) (sz : AccSize) (d : Word) (s : State) : Host.Outcome State Fault Refusal :=
  .next (s.regWrite r a.toNat sz d)

/-- WIDE_LOW_READ (R33, R36). -/
def execWideLowRead (r : Requester) (a : BitVec 32) (sz : AccSize) (s : State) : Host.Outcome State Fault Refusal :=
  .next (s.readOut r a.toNat sz)

/-- WIDE_HIGH_READ (R33, R36). -/
def execWideHighRead (r : Requester) (a : BitVec 32) (sz : AccSize) (s : State) : Host.Outcome State Fault Refusal :=
  .next (s.readOut r a.toNat sz)

/-- WIDE_LOW_WRITE (R34, R36). -/
def execWideLowWrite (r : Requester) (a : BitVec 32) (sz : AccSize) (d : Word) (s : State) : Host.Outcome State Fault Refusal :=
  .next (s.regWrite r a.toNat sz d)

/-- WIDE_HIGH_WRITE (R34, R36). -/
def execWideHighWrite (r : Requester) (a : BitVec 32) (sz : AccSize) (d : Word) (s : State) : Host.Outcome State Fault Refusal :=
  .next (s.regWrite r a.toNat sz d)

/-- PENDING_CANCEL (R42). -/
def execPendingCancel (r : Requester) (a : BitVec 32) (sz : AccSize) (d : Word) (s : State) : Host.Outcome State Fault Refusal :=
  .next (s.regWrite r a.toNat sz d)

/-- INT_REARM (R45). -/
def execIntRearm (r : Requester) (a : BitVec 32) (sz : AccSize) (d : Word) (s : State) : Host.Outcome State Fault Refusal :=
  .next (s.regWrite r a.toNat sz d)

/-- A DEVICE store (R197, R362): on a control core a register write; a crucible's profile has none (R141, Table 8.1). A register of a
keystone that performs nothing more never acknowledges it (R365). -/
def State.storeDev (s : State) (u : MUnit) (f : FmtC) (sz : AccSize) (ins : Instr) : State :=
  s.front u f.g (badC f) (isCru u) ⟨[], []⟩ true (fun s =>
    match u with
    | .cru _ => s
    | .core e c =>
      let m := s.mki u
      let a := m.addr f
      match devCheck a (if sz = .b8 then 8 else 4) true with
      | some (k, b) => s.unitTrap u .xq k m.pc b
      | none =>
        match s.devStuck a with
        | some k => s.devWait e c k a true ins
        | none => (s.modMki u Mki.step).regWrite (.core e c) a sz (m.sreg f.d.toNat))

/-- stwd (R197). -/
def execStwd (u : MUnit) (f : FmtC) (s : State) : Host.Outcome State Fault Refusal := .next (s.storeDev u f .b4 (.stwd u f))

/-- stdd (R197). -/
def execStdd (u : MUnit) (f : FmtC) (s : State) : Host.Outcome State Fault Refusal := .next (s.storeDev u f .b8 (.stdd u f))

/-! ## The test access ports (R581, R582) -/

/-- The TAP of an occupied site takes an instruction while TRST_N is high. -/
def State.tap (s : State) (x : Nat) (i : TapIr) (f : State → State) : State :=
  if hasSite s.build x && !s.trstLow then f { s with taps := tblSet s.taps x i } else s

/-- BYPASS. -/
def execBypass (x : Fin 100) (s : State) : Host.Outcome State Fault Refusal := .next (s.tap x.val .bypass id)

/-- SAMPLE_PRELOAD: the set's function is unaffected. -/
def execSamplePreload (x : Fin 100) (s : State) : Host.Outcome State Fault Refusal := .next (s.tap x.val .sample (fun s => s))

/-- EXTEST: the pins are the TAP's until TRST_N is low again (R582). -/
def execExtest (x : Fin 100) (s : State) : Host.Outcome State Fault Refusal := .next (s.tap x.val .extest (fun s => { s with pinsTaken := true }))

/-- IDCODE: manufacturer code 0x5D3 in bits [11:1] and bit 0 set, as IEEE 1149.1 places them; the part and version are free values
(log entry 1). -/
def execIdcode (x : Fin 100) (s : State) : Host.Outcome State Fault Refusal :=
  .next (s.tap x.val .idcode (fun s =>
    let (v, s1) := s.takeWord
    s1.modReq .test (fun q => { q with out := BitVec.ofNat 64 (v.toNat % 2 ^ 20 * 2 ^ 12 + 0x5D3 * 2 + 1) })))

/-- REGACC: an access of the test-port requester. -/
def execRegacc (x : Fin 100) (wr : Bool) (a : BitVec 32) (sz : AccSize) (d : Word) (s : State) : Host.Outcome State Fault Refusal :=
  .next (s.tap x.val .regacc (fun s => if wr then s.regWrite .test a.toNat sz d else s.readOut .test a.toNat sz))

/-- TRST_N: every TAP is in Test-Logic-Reset, and the pins act again. -/
def execTrstN (s : State) : Host.Outcome State Fault Refusal := .next { s with taps := s.taps.map (fun e => (e.1, .reset)), trstLow := true, pinsTaken := false }

/-- TRST_N_RELEASE. -/
def execTrstNRelease (s : State) : Host.Outcome State Fault Refusal := .next { s with trstLow := false }

end Sys2Proof.Machine
end

