-- ==== Sys2Proof/Machine/Dispatch.lean ====
section
/-! DEFINITION. Dispatch: one arm per constructor of `Instr`, each one call of the command's meaning. -/

namespace Sys2Proof.Machine

open Sys2Proof

/-- The effect of a command on everything but the queue. -/
def exec (i : Instr) (s : State) : Host.Outcome State Fault Refusal :=
  match i with
  | .registerWrite r a sz d => Sys2Proof.Machine.execRegisterWrite r a sz d s
  | .rwcWrite r a sz d => Sys2Proof.Machine.execRwcWrite r a sz d s
  | .wideLowRead r a sz => Sys2Proof.Machine.execWideLowRead r a sz s
  | .wideHighRead r a sz => Sys2Proof.Machine.execWideHighRead r a sz s
  | .wideLowWrite r a sz d => Sys2Proof.Machine.execWideLowWrite r a sz d s
  | .wideHighWrite r a sz d => Sys2Proof.Machine.execWideHighWrite r a sz d s
  | .pendingCancel r a sz d => Sys2Proof.Machine.execPendingCancel r a sz d s
  | .intRearm r a sz d => Sys2Proof.Machine.execIntRearm r a sz d s
  | .frameEdge t => Sys2Proof.Machine.execFrameEdge t s
  | .frameEdgeMissed => Sys2Proof.Machine.execFrameEdgeMissed s
  | .generatedEdge => Sys2Proof.Machine.execGeneratedEdge s
  | .relockAbandon => Sys2Proof.Machine.execRelockAbandon s
  | .todMessage bytes t => Sys2Proof.Machine.execTodMessage bytes t s
  | .halfRateEnd => Sys2Proof.Machine.execHalfRateEnd s
  | .todMissing => Sys2Proof.Machine.execTodMissing s
  | .timebaseEnable r p d => Sys2Proof.Machine.execTimebaseEnable r p d s
  | .freeStart r p d => Sys2Proof.Machine.execFreeStart r p d s
  | .holdForce r p d => Sys2Proof.Machine.execHoldForce r p d s
  | .courseBoundary => Sys2Proof.Machine.execCourseBoundary s
  | .sanitizeEnd e => Sys2Proof.Machine.execSanitizeEnd e s
  | .chargeDeadline p slot => Sys2Proof.Machine.execChargeDeadline p slot s
  | .accessDeadDeclare => Sys2Proof.Machine.execAccessDeadDeclare s
  | .chillEnd => Sys2Proof.Machine.execChillEnd s
  | .takeoverDecision => Sys2Proof.Machine.execTakeoverDecision s
  | .heartbeatLost => Sys2Proof.Machine.execHeartbeatLost s
  | .start r n => Sys2Proof.Machine.execStart r n s
  | .stop r n => Sys2Proof.Machine.execStop r n s
  | .stopComplete n => Sys2Proof.Machine.execStopComplete n s
  | .resume r n => Sys2Proof.Machine.execResume r n s
  | .abort r n => Sys2Proof.Machine.execAbort r n s
  | .abortComplete n => Sys2Proof.Machine.execAbortComplete n s
  | .reset r n => Sys2Proof.Machine.execReset r n s
  | .resetComplete n => Sys2Proof.Machine.execResetComplete n s
  | .standby r n => Sys2Proof.Machine.execStandby r n s
  | .standbyComplete n => Sys2Proof.Machine.execStandbyComplete n s
  | .wake r n => Sys2Proof.Machine.execWake r n s
  | .retire r n => Sys2Proof.Machine.execRetire r n s
  | .retireComplete n => Sys2Proof.Machine.execRetireComplete n s
  | .selftestEnd n failPart => Sys2Proof.Machine.execSelftestEnd n failPart s
  | .crucibleFail n src => Sys2Proof.Machine.execCrucibleFail n src s
  | .crucibleTrap n => Sys2Proof.Machine.execCrucibleTrap n s
  | .interruptAccept e c => Sys2Proof.Machine.execInterruptAccept e c s
  | .mma u f => Sys2Proof.Machine.execMma u f s
  | .tclr u f => Sys2Proof.Machine.execTclr u f s
  | .trow u f => Sys2Proof.Machine.execTrow u f s
  | .ttr u f => Sys2Proof.Machine.execTtr u f s
  | .tsclC u f => Sys2Proof.Machine.execTsclC u f s
  | .tsclR u f => Sys2Proof.Machine.execTsclR u f s
  | .tld u f => Sys2Proof.Machine.execTld u f s
  | .tst u f => Sys2Proof.Machine.execTst u f s
  | .xld u f => Sys2Proof.Machine.execXld u f s
  | .xldn u f => Sys2Proof.Machine.execXldn u f s
  | .xst u f => Sys2Proof.Machine.execXst u f s
  | .xstn u f => Sys2Proof.Machine.execXstn u f s
  | .vaddF32 u f => Sys2Proof.Machine.execVaddF32 u f s
  | .vsubF32 u f => Sys2Proof.Machine.execVsubF32 u f s
  | .vmulF32 u f => Sys2Proof.Machine.execVmulF32 u f s
  | .vfmaF32 u f => Sys2Proof.Machine.execVfmaF32 u f s
  | .vfnmaF32 u f => Sys2Proof.Machine.execVfnmaF32 u f s
  | .vminF32 u f => Sys2Proof.Machine.execVminF32 u f s
  | .vmaxF32 u f => Sys2Proof.Machine.execVmaxF32 u f s
  | .vabsF32 u f => Sys2Proof.Machine.execVabsF32 u f s
  | .vnegF32 u f => Sys2Proof.Machine.execVnegF32 u f s
  | .vadd u f => Sys2Proof.Machine.execVadd u f s
  | .vsub u f => Sys2Proof.Machine.execVsub u f s
  | .vmul u f => Sys2Proof.Machine.execVmul u f s
  | .vadds u f => Sys2Proof.Machine.execVadds u f s
  | .vsubs u f => Sys2Proof.Machine.execVsubs u f s
  | .vmin u f => Sys2Proof.Machine.execVmin u f s
  | .vmax u f => Sys2Proof.Machine.execVmax u f s
  | .vand u f => Sys2Proof.Machine.execVand u f s
  | .vor u f => Sys2Proof.Machine.execVor u f s
  | .vxor u f => Sys2Proof.Machine.execVxor u f s
  | .vshl u f => Sys2Proof.Machine.execVshl u f s
  | .vshr u f => Sys2Proof.Machine.execVshr u f s
  | .vsra u f => Sys2Proof.Machine.execVsra u f s
  | .vceq u f => Sys2Proof.Machine.execVceq u f s
  | .vcne u f => Sys2Proof.Machine.execVcne u f s
  | .vclt u f => Sys2Proof.Machine.execVclt u f s
  | .vcle u f => Sys2Proof.Machine.execVcle u f s
  | .vcgt u f => Sys2Proof.Machine.execVcgt u f s
  | .vcge u f => Sys2Proof.Machine.execVcge u f s
  | .vsel u f => Sys2Proof.Machine.execVsel u f s
  | .vbcast u f => Sys2Proof.Machine.execVbcast u f s
  | .vins u f => Sys2Proof.Machine.execVins u f s
  | .vext u f => Sys2Proof.Machine.execVext u f s
  | .vrsumF32 u f => Sys2Proof.Machine.execVrsumF32 u f s
  | .vrmaxF32 u f => Sys2Proof.Machine.execVrmaxF32 u f s
  | .vseed u f => Sys2Proof.Machine.execVseed u f s
  | .vcvt u f fn => Sys2Proof.Machine.execVcvt u f fn s
  | .vqmx u f => Sys2Proof.Machine.execVqmx u f s
  | .vdqmx u f => Sys2Proof.Machine.execVdqmx u f s
  | .vld u f => Sys2Proof.Machine.execVld u f s
  | .vst u f => Sys2Proof.Machine.execVst u f s
  | .vperm u f => Sys2Proof.Machine.execVperm u f s
  | .vpermB u f => Sys2Proof.Machine.execVpermB u f s
  | .vrcpF32 u f => Sys2Proof.Machine.execVrcpF32 u f s
  | .vrsqrtF32 u f => Sys2Proof.Machine.execVrsqrtF32 u f s
  | .vsqrtF32 u f => Sys2Proof.Machine.execVsqrtF32 u f s
  | .vexp2F32 u f => Sys2Proof.Machine.execVexp2F32 u f s
  | .vexpF32 u f => Sys2Proof.Machine.execVexpF32 u f s
  | .vlog2F32 u f => Sys2Proof.Machine.execVlog2F32 u f s
  | .vlnF32 u f => Sys2Proof.Machine.execVlnF32 u f s
  | .vsinF32 u f => Sys2Proof.Machine.execVsinF32 u f s
  | .vcosF32 u f => Sys2Proof.Machine.execVcosF32 u f s
  | .vtanhF32 u f => Sys2Proof.Machine.execVtanhF32 u f s
  | .vsigmoidF32 u f => Sys2Proof.Machine.execVsigmoidF32 u f s
  | .add u f => Sys2Proof.Machine.execAdd u f s
  | .sub u f => Sys2Proof.Machine.execSub u f s
  | .and u f => Sys2Proof.Machine.execAnd u f s
  | .or u f => Sys2Proof.Machine.execOr u f s
  | .xor u f => Sys2Proof.Machine.execXor u f s
  | .shl u f => Sys2Proof.Machine.execShl u f s
  | .shr u f => Sys2Proof.Machine.execShr u f s
  | .sra u f => Sys2Proof.Machine.execSra u f s
  | .min u f => Sys2Proof.Machine.execMin u f s
  | .max u f => Sys2Proof.Machine.execMax u f s
  | .minu u f => Sys2Proof.Machine.execMinu u f s
  | .maxu u f => Sys2Proof.Machine.execMaxu u f s
  | .clz u f => Sys2Proof.Machine.execClz u f s
  | .ctz u f => Sys2Proof.Machine.execCtz u f s
  | .popc u f => Sys2Proof.Machine.execPopc u f s
  | .addi u f => Sys2Proof.Machine.execAddi u f s
  | .subi u f => Sys2Proof.Machine.execSubi u f s
  | .andi u f => Sys2Proof.Machine.execAndi u f s
  | .ori u f => Sys2Proof.Machine.execOri u f s
  | .xori u f => Sys2Proof.Machine.execXori u f s
  | .shli u f => Sys2Proof.Machine.execShli u f s
  | .shri u f => Sys2Proof.Machine.execShri u f s
  | .srai u f => Sys2Proof.Machine.execSrai u f s
  | .mini u f => Sys2Proof.Machine.execMini u f s
  | .maxi u f => Sys2Proof.Machine.execMaxi u f s
  | .minui u f => Sys2Proof.Machine.execMinui u f s
  | .maxui u f => Sys2Proof.Machine.execMaxui u f s
  | .mul u f => Sys2Proof.Machine.execMul u f s
  | .mulh u f => Sys2Proof.Machine.execMulh u f s
  | .mulhu u f => Sys2Proof.Machine.execMulhu u f s
  | .div u f => Sys2Proof.Machine.execDiv u f s
  | .divu u f => Sys2Proof.Machine.execDivu u f s
  | .rem u f => Sys2Proof.Machine.execRem u f s
  | .remu u f => Sys2Proof.Machine.execRemu u f s
  | .movi u f => Sys2Proof.Machine.execMovi u f s
  | .movz u f => Sys2Proof.Machine.execMovz u f s
  | .movhi u f => Sys2Proof.Machine.execMovhi u f s
  | .ceq u f => Sys2Proof.Machine.execCeq u f s
  | .cne u f => Sys2Proof.Machine.execCne u f s
  | .clt u f => Sys2Proof.Machine.execClt u f s
  | .cle u f => Sys2Proof.Machine.execCle u f s
  | .cltu u f => Sys2Proof.Machine.execCltu u f s
  | .cleu u f => Sys2Proof.Machine.execCleu u f s
  | .ceqi u f => Sys2Proof.Machine.execCeqi u f s
  | .cnei u f => Sys2Proof.Machine.execCnei u f s
  | .clti u f => Sys2Proof.Machine.execClti u f s
  | .clei u f => Sys2Proof.Machine.execClei u f s
  | .cltui u f => Sys2Proof.Machine.execCltui u f s
  | .cleui u f => Sys2Proof.Machine.execCleui u f s
  | .pand u f => Sys2Proof.Machine.execPand u f s
  | .por u f => Sys2Proof.Machine.execPor u f s
  | .pxor u f => Sys2Proof.Machine.execPxor u f s
  | .pnot u f => Sys2Proof.Machine.execPnot u f s
  | .pfroms u f => Sys2Proof.Machine.execPfroms u f s
  | .ptos u f => Sys2Proof.Machine.execPtos u f s
  | .pcnt u f => Sys2Proof.Machine.execPcnt u f s
  | .br u f => Sys2Proof.Machine.execBr u f s
  | .call u f => Sys2Proof.Machine.execCall u f s
  | .jr u f => Sys2Proof.Machine.execJr u f s
  | .jalr u f => Sys2Proof.Machine.execJalr u f s
  | .bnz u f => Sys2Proof.Machine.execBnz u f s
  | .fetch u => Sys2Proof.Machine.execFetch u s
  | .csrr u f => Sys2Proof.Machine.execCsrr u f s
  | .csrw u f => Sys2Proof.Machine.execCsrw u f s
  | .csrs u f => Sys2Proof.Machine.execCsrs u f s
  | .csrc u f => Sys2Proof.Machine.execCsrc u f s
  | .fclr u f => Sys2Proof.Machine.execFclr u f s
  | .mkiEnd u f => Sys2Proof.Machine.execMkiEnd u f s
  | .endRetire n => Sys2Proof.Machine.execEndRetire n s
  | .mkiBreak u f => Sys2Proof.Machine.execMkiBreak u f s
  | .eret u f => Sys2Proof.Machine.execEret u f s
  | .wfi u f => Sys2Proof.Machine.execWfi u f s
  | .ldb u f => Sys2Proof.Machine.execLdb u f s
  | .ldbs u f => Sys2Proof.Machine.execLdbs u f s
  | .ldh u f => Sys2Proof.Machine.execLdh u f s
  | .ldhs u f => Sys2Proof.Machine.execLdhs u f s
  | .ldw u f => Sys2Proof.Machine.execLdw u f s
  | .ldws u f => Sys2Proof.Machine.execLdws u f s
  | .ldd u f => Sys2Proof.Machine.execLdd u f s
  | .stb u f => Sys2Proof.Machine.execStb u f s
  | .sth u f => Sys2Proof.Machine.execSth u f s
  | .stw u f => Sys2Proof.Machine.execStw u f s
  | .std u f => Sys2Proof.Machine.execStd u f s
  | .ldp u f => Sys2Proof.Machine.execLdp u f s
  | .stp u f => Sys2Proof.Machine.execStp u f s
  | .ldwd u f => Sys2Proof.Machine.execLdwd u f s
  | .lddd u f => Sys2Proof.Machine.execLddd u f s
  | .stwd u f => Sys2Proof.Machine.execStwd u f s
  | .stdd u f => Sys2Proof.Machine.execStdd u f s
  | .ldres u f => Sys2Proof.Machine.execLdres u f s
  | .stcond u f => Sys2Proof.Machine.execStcond u f s
  | .ram u f fn => Sys2Proof.Machine.execRam u f fn s
  | .cln u f => Sys2Proof.Machine.execCln u f s
  | .cfl u f => Sys2Proof.Machine.execCfl u f s
  | .lfld u f => Sys2Proof.Machine.execLfld u f s
  | .lfldn u f => Sys2Proof.Machine.execLfldn u f s
  | .lfst u f => Sys2Proof.Machine.execLfst u f s
  | .lfstn u f => Sys2Proof.Machine.execLfstn u f s
  | .lfldw u f => Sys2Proof.Machine.execLfldw u f s
  | .lfldwn u f => Sys2Proof.Machine.execLfldwn u f s
  | .lfq u f fn => Sys2Proof.Machine.execLfq u f fn s
  | .scsig u f fn => Sys2Proof.Machine.execScsig u f fn s
  | .signalTokenFire n q => Sys2Proof.Machine.execSignalTokenFire n q s
  | .scwait u f fn => Sys2Proof.Machine.execScwait u f fn s
  | .scwaitRelease n q => Sys2Proof.Machine.execScwaitRelease n q s
  | .scset u f fn => Sys2Proof.Machine.execScset u f fn s
  | .scread u f fn => Sys2Proof.Machine.execScread u f fn s
  | .mortar u f => Sys2Proof.Machine.execMortar u f s
  | .mortarRetire u => Sys2Proof.Machine.execMortarRetire u s
  | .chargeStart n => Sys2Proof.Machine.execChargeStart n s
  | .chargeDone n => Sys2Proof.Machine.execChargeDone n s
  | .failover n => Sys2Proof.Machine.execFailover n s
  | .streamSet q c => Sys2Proof.Machine.execStreamSet q c s
  | .streamFree q c => Sys2Proof.Machine.execStreamFree q c s
  | .streamQuery q c => Sys2Proof.Machine.execStreamQuery q c s
  | .pourOpen q c => Sys2Proof.Machine.execPourOpen q c s
  | .pourClose q c => Sys2Proof.Machine.execPourClose q c s
  | .pourQuery q c => Sys2Proof.Machine.execPourQuery q c s
  | .flaskLoad q c => Sys2Proof.Machine.execFlaskLoad q c s
  | .flaskFree q c => Sys2Proof.Machine.execFlaskFree q c s
  | .flaskQuery q c => Sys2Proof.Machine.execFlaskQuery q c s
  | .nop q c => Sys2Proof.Machine.execNop q c s
  | .ladle q c => Sys2Proof.Machine.execLadle q c s
  | .ladleIssue l => Sys2Proof.Machine.execLadleIssue l s
  | .fragmentComplete l ix => Sys2Proof.Machine.execFragmentComplete l ix s
  | .ladleReset l => Sys2Proof.Machine.execLadleReset l s
  | .ladleSelftestEnd l pass => Sys2Proof.Machine.execLadleSelftestEnd l pass s
  | .sqTail q v => Sys2Proof.Machine.execSqTail q v s
  | .slotConsume q => Sys2Proof.Machine.execSlotConsume q s
  | .sealReread q => Sys2Proof.Machine.execSealReread q s
  | .slotTaken q => Sys2Proof.Machine.execSlotTaken q s
  | .recordWrite q => Sys2Proof.Machine.execRecordWrite q s
  | .noticeWrite h => Sys2Proof.Machine.execNoticeWrite h s
  | .cqHead q v => Sys2Proof.Machine.execCqHead q v s
  | .nqHead h v => Sys2Proof.Machine.execNqHead h v s
  | .queueEnable r q => Sys2Proof.Machine.execQueueEnable r q s
  | .queueDisable r q => Sys2Proof.Machine.execQueueDisable r q s
  | .queueResume r q => Sys2Proof.Machine.execQueueResume r q s
  | .gtNqCfg r h p d => Sys2Proof.Machine.execGtNqCfg r h p d s
  | .rds m => Sys2Proof.Machine.execRds m s
  | .rdx m => Sys2Proof.Machine.execRdx m s
  | .upg m => Sys2Proof.Machine.execUpg m s
  | .rdc m => Sys2Proof.Machine.execRdc m s
  | .wrf m => Sys2Proof.Machine.execWrf m s
  | .wrp m => Sys2Proof.Machine.execWrp m s
  | .wbd m => Sys2Proof.Machine.execWbd m s
  | .wbk m => Sys2Proof.Machine.execWbk m s
  | .evc m => Sys2Proof.Machine.execEvc m s
  | .rammerCombine m => Sys2Proof.Machine.execRammerCombine m s
  | .retry m => Sys2Proof.Machine.execRetry m s
  | .rgrant m => Sys2Proof.Machine.execRgrant m s
  | .snpfwds m => Sys2Proof.Machine.execSnpfwds m s
  | .snpfwdx m => Sys2Proof.Machine.execSnpfwdx m s
  | .snpcur m => Sys2Proof.Machine.execSnpcur m s
  | .snpinv m => Sys2Proof.Machine.execSnpinv m s
  | .snpgeti m => Sys2Proof.Machine.execSnpgeti m s
  | .snpinvg m => Sys2Proof.Machine.execSnpinvg m s
  | .tagq m => Sys2Proof.Machine.execTagq m s
  | .snpack m => Sys2Proof.Machine.execSnpack m s
  | .snpdata m => Sys2Proof.Machine.execSnpdata m s
  | .tagr m => Sys2Proof.Machine.execTagr m s
  | .cmp m => Sys2Proof.Machine.execCmp m s
  | .cmpx m => Sys2Proof.Machine.execCmpx m s
  | .datax m => Sys2Proof.Machine.execDatax m s
  | .datad m => Sys2Proof.Machine.execDatad m s
  | .datas m => Sys2Proof.Machine.execDatas m s
  | .datal m => Sys2Proof.Machine.execDatal m s
  | .datac m => Sys2Proof.Machine.execDatac m s
  | .memrd m => Sys2Proof.Machine.execMemrd m s
  | .memrddata m => Sys2Proof.Machine.execMemrddata m s
  | .meminv m => Sys2Proof.Machine.execMeminv m s
  | .memwr m => Sys2Proof.Machine.execMemwr m s
  | .memwrptl m => Sys2Proof.Machine.execMemwrptl m s
  | .memclnevct m => Sys2Proof.Machine.execMemclnevct m s
  | .birspi m => Sys2Proof.Machine.execBirspi m s
  | .birsps m => Sys2Proof.Machine.execBirsps m s
  | .birspe m => Sys2Proof.Machine.execBirspe m s
  | .biconflict m => Sys2Proof.Machine.execBiconflict m s
  | .snoopTimeout k n line => Sys2Proof.Machine.execSnoopTimeout k n line s
  | .biTimeout k h line => Sys2Proof.Machine.execBiTimeout k h line s
  | .tagrTimeout k n line => Sys2Proof.Machine.execTagrTimeout k n line s
  | .reclaimSweepEnd k => Sys2Proof.Machine.execReclaimSweepEnd k s
  | .clean r n => Sys2Proof.Machine.execClean r n s
  | .flush r n => Sys2Proof.Machine.execFlush r n s
  | .cleanAll r n => Sys2Proof.Machine.execCleanAll r n s
  | .flushAll r n => Sys2Proof.Machine.execFlushAll r n s
  | .rangeCommandEnd n => Sys2Proof.Machine.execRangeCommandEnd n s
  | .cacheDrainEnd n => Sys2Proof.Machine.execCacheDrainEnd n s
  | .cacheInvalidateEnd n => Sys2Proof.Machine.execCacheInvalidateEnd n s
  | .hearthDrainEnd k => Sys2Proof.Machine.execHearthDrainEnd k s
  | .hearthInvalidateEnd k => Sys2Proof.Machine.execHearthInvalidateEnd k s
  | .rd k sla st die => Sys2Proof.Machine.execRd k sla st die s
  | .wr k sla => Sys2Proof.Machine.execWr k sla s
  | .scrub k st die => Sys2Proof.Machine.execScrub k st die s
  | .reg k regno v => Sys2Proof.Machine.execReg k regno v s
  | .mpTimeout k => Sys2Proof.Machine.execMpTimeout k s
  | .scrubStart r k => Sys2Proof.Machine.execScrubStart r k s
  | .scrubStop r k => Sys2Proof.Machine.execScrubStop r k s
  | .logClear r k => Sys2Proof.Machine.execLogClear r k s
  | .wrRaw r k => Sys2Proof.Machine.execWrRaw r k s
  | .rdRaw r k st => Sys2Proof.Machine.execRdRaw r k st s
  | .sprueMessage x p m => Sys2Proof.Machine.execSprueMessage x p m s
  | .flit x p j crcOk flit replays => Sys2Proof.Machine.execFlit x p j crcOk flit replays s
  | .escapeMove x p vn => Sys2Proof.Machine.execEscapeMove x p vn s
  | .linkTrained x p modules spares => Sys2Proof.Machine.execLinkTrained x p modules spares s
  | .linkAbsent x p => Sys2Proof.Machine.execLinkAbsent x p s
  | .retrainEnd x p modules spares progress sideband => Sys2Proof.Machine.execRetrainEnd x p modules spares progress sideband s
  | .spRoute r x dest p d => Sys2Proof.Machine.execSpRoute r x dest p d s
  | .linkL0 g l => Sys2Proof.Machine.execLinkL0 g l s
  | .linkRetrain g => Sys2Proof.Machine.execLinkRetrain g s
  | .retrainTimeout g => Sys2Proof.Machine.execRetrainTimeout g s
  | .linkDown g => Sys2Proof.Machine.execLinkDown g s
  | .hotReset g => Sys2Proof.Machine.execHotReset g s
  | .fundamentalReset g => Sys2Proof.Machine.execFundamentalReset g s
  | .masterEnableClear h => Sys2Proof.Machine.execMasterEnableClear h s
  | .masterEnableSet h => Sys2Proof.Machine.execMasterEnableSet h s
  | .flr h => Sys2Proof.Machine.execFlr h s
  | .flrComplete h => Sys2Proof.Machine.execFlrComplete h s
  | .d3hot h => Sys2Proof.Machine.execD3hot h s
  | .d0Return h => Sys2Proof.Machine.execD0Return h s
  | .hdmCommit h f => Sys2Proof.Machine.execHdmCommit h f s
  | .hostCompletion g tag data st => Sys2Proof.Machine.execHostCompletion g tag data st s
  | .completionTimeout g tag => Sys2Proof.Machine.execCompletionTimeout g tag s
  | .tagRelease => Sys2Proof.Machine.execTagRelease s
  | .msiXSend h v => Sys2Proof.Machine.execMsiXSend h v s
  | .ideFail g ix => Sys2Proof.Machine.execIdeFail g ix s
  | .mctpMessage b ty => Sys2Proof.Machine.execMctpMessage b ty s
  | .getDcdInfo => Sys2Proof.Machine.execGetDcdInfo s
  | .getHostDcRegionConfiguration h => Sys2Proof.Machine.execGetHostDcRegionConfiguration h s
  | .setDcRegionConfiguration h blockBytes sanitize => Sys2Proof.Machine.execSetDcRegionConfiguration h blockBytes sanitize s
  | .getDcdExtentLists h => Sys2Proof.Machine.execGetDcdExtentLists h s
  | .initiateDynamicCapacityAdd h a => Sys2Proof.Machine.execInitiateDynamicCapacityAdd h a s
  | .initiateDynamicCapacityRelease h first forced => Sys2Proof.Machine.execInitiateDynamicCapacityRelease h first forced s
  | .setRegionPlacement d near => Sys2Proof.Machine.execSetRegionPlacement d near s
  | .getRegionPlacement => Sys2Proof.Machine.execGetRegionPlacement s
  | .getDynamicCapacityConfiguration h => Sys2Proof.Machine.execGetDynamicCapacityConfiguration h s
  | .getDynamicCapacityExtentList h => Sys2Proof.Machine.execGetDynamicCapacityExtentList h s
  | .addDynamicCapacityResponse h firsts => Sys2Proof.Machine.execAddDynamicCapacityResponse h firsts s
  | .releaseDynamicCapacity h first => Sys2Proof.Machine.execReleaseDynamicCapacity h first s
  | .prsntChange g present => Sys2Proof.Machine.execPrsntChange g present s
  | .attnPress g => Sys2Proof.Machine.execAttnPress g s
  | .slotScan => Sys2Proof.Machine.execSlotScan s
  | .attach g => Sys2Proof.Machine.execAttach g s
  | .poweringTimeout g => Sys2Proof.Machine.execPoweringTimeout g s
  | .trainingTimeout g => Sys2Proof.Machine.execTrainingTimeout g s
  | .detachPendingTimeout g => Sys2Proof.Machine.execDetachPendingTimeout g s
  | .detach g => Sys2Proof.Machine.execDetach g s
  | .releaseSweep g => Sys2Proof.Machine.execReleaseSweep g s
  | .releaseSweepEnd g => Sys2Proof.Machine.execReleaseSweepEnd g s
  | .linkEn r g p d => Sys2Proof.Machine.execLinkEn r g p d s
  | .getInfo h => Sys2Proof.Machine.execGetInfo h s
  | .slotAttach h => Sys2Proof.Machine.execSlotAttach h s
  | .slotDetach h => Sys2Proof.Machine.execSlotDetach h s
  | .slotQuery h => Sys2Proof.Machine.execSlotQuery h s
  | .getFwInfo => Sys2Proof.Machine.execGetFwInfo s
  | .transferFw slot img last => Sys2Proof.Machine.execTransferFw slot img last s
  | .activateFw slot online => Sys2Proof.Machine.execActivateFw slot online s
  | .spdmRequest req => Sys2Proof.Machine.execSpdmRequest req s
  | .boot porst passed => Sys2Proof.Machine.execBoot porst passed s
  | .beat e c d => Sys2Proof.Machine.execBeat e c d s
  | .handover r => Sys2Proof.Machine.execHandover r s
  | .coreRelease e c d => Sys2Proof.Machine.execCoreRelease e c d s
  | .ipiRaise e c d => Sys2Proof.Machine.execIpiRaise e c d s
  | .ipiClear e c d => Sys2Proof.Machine.execIpiClear e c d s
  | .faultEvent ev within => Sys2Proof.Machine.execFaultEvent ev within s
  | .ftForce r v => Sys2Proof.Machine.execFtForce r v s
  | .clearFirst r => Sys2Proof.Machine.execClearFirst r s
  | .ftQHead r v => Sys2Proof.Machine.execFtQHead r v s
  | .heldEventEntry => Sys2Proof.Machine.execHeldEventEntry s
  | .ftPinHold r p d => Sys2Proof.Machine.execFtPinHold r p d s
  | .faultNPulseEnd => Sys2Proof.Machine.execFaultNPulseEnd s
  | .pwrWarn => Sys2Proof.Machine.execPwrWarn s
  | .thermHigh x => Sys2Proof.Machine.execThermHigh x s
  | .thermTrip x => Sys2Proof.Machine.execThermTrip x s
  | .thermClear => Sys2Proof.Machine.execThermClear s
  | .ksOut k => Sys2Proof.Machine.execKsOut k s
  | .freeze r => Sys2Proof.Machine.execFreeze r s
  | .thaw r => Sys2Proof.Machine.execThaw r s
  | .clear r => Sys2Proof.Machine.execClear r s
  | .autoThaw => Sys2Proof.Machine.execAutoThaw s
  | .porstNLow => Sys2Proof.Machine.execPorstNLow s
  | .porstNRise => Sys2Proof.Machine.execPorstNRise s
  | .bringupStep ix o => Sys2Proof.Machine.execBringupStep ix o s
  | .chipReset cause => Sys2Proof.Machine.execChipReset cause s
  | .chipResetCommand r d => Sys2Proof.Machine.execChipResetCommand r d s
  | .drainTimeout n => Sys2Proof.Machine.execDrainTimeout n s
  | .chipResetLinkTimeout => Sys2Proof.Machine.execChipResetLinkTimeout s
  | .pwrFail => Sys2Proof.Machine.execPwrFail s
  | .pwrFailRecover => Sys2Proof.Machine.execPwrFailRecover s
  | .bypass x => Sys2Proof.Machine.execBypass x s
  | .samplePreload x => Sys2Proof.Machine.execSamplePreload x s
  | .extest x => Sys2Proof.Machine.execExtest x s
  | .idcode x => Sys2Proof.Machine.execIdcode x s
  | .regacc x wr a sz d => Sys2Proof.Machine.execRegacc x wr a sz d s
  | .trstN => Sys2Proof.Machine.execTrstN s
  | .pwrWarnNHigh => Sys2Proof.Machine.execPwrWarnNHigh s
  | .perstNRelease g => Sys2Proof.Machine.execPerstNRelease g s
  | .routerFailed x => Sys2Proof.Machine.execRouterFailed x s
  | .channelRetrainFailed k j => Sys2Proof.Machine.execChannelRetrainFailed k j s
  | .linkReturnTimeout g => Sys2Proof.Machine.execLinkReturnTimeout g s
  | .flrSanitizeEnd h => Sys2Proof.Machine.execFlrSanitizeEnd h s
  | .ideKeysProgrammed g ix => Sys2Proof.Machine.execIdeKeysProgrammed g ix s
  | .h2dSnoop g line => Sys2Proof.Machine.execH2dSnoop g line s
  | .trstNRelease => Sys2Proof.Machine.execTrstNRelease s

end Sys2Proof.Machine
end

