-- ==== Sys2Proof/Safety.lean ====
section
/-! DEFINITION. What counts as a safe step (a next state: no meaning of this model stops, log entry 5), and the words the statements
use: when a unit can dispatch an instruction, the next state of an instruction in a register's terms, when a command is taken by the
block it names, and what is compared before and after. -/

namespace Sys2Proof

/-- The step answered a next state. -/
def stepSafe (o : Host.Outcome Machine.State Machine.Fault Machine.Refusal) : Bool :=
  match o with
  | .next _ => true
  | _ => false

end Sys2Proof

namespace Sys2Proof.Machine

open Sys2Proof

/-! ## Instructions of a unit -/

/-- Unit u can dispatch: it stands at an instruction boundary (R71), the interlock does not hold the instruction back (R136), and the
fetch at its PC meets no trap (R189). -/
abbrev State.canDispatch (s : State) (u : MUnit) (g : Guard) (r : Uses) : Prop :=
  s.ready u = true ∧ s.interlocked u g r = false ∧ (s.wake u).fetchTrap u = none

/-- Unit u can dispatch and its guard lets an instruction execute as a whole (R147). -/
abbrev State.canRun (s : State) (u : MUnit) (g : Guard) (r : Uses) : Prop :=
  s.canDispatch u g r ∧ ((s.mki u).guard g).getLsbD 0 = true

/-- The unit's s[k] before the instruction. -/
def State.sOf (s : State) (u : MUnit) (k : BitVec 6) : Word := (s.mki u).sreg k.toNat

/-- The unit's p[k] before the instruction. -/
def State.pOf (s : State) (u : MUnit) (k : BitVec 6) : Word := (s.mki u).preg k.toNat

/-- The state after an instruction that writes v into s[d] and moves PC to the next instruction. -/
def State.afterS (s : State) (u : MUnit) (d : BitVec 6) (v : Word) : State :=
  (s.wake u).modMki u (fun m => { m.setS d.toNat v with pc := m.pc + 8 })

/-- The state after an instruction that writes v into p[d] and moves PC to the next instruction. -/
def State.afterP (s : State) (u : MUnit) (d : BitVec 6) (v : Word) : State :=
  (s.wake u).modMki u (fun m => { m.setP d.toNat v with pc := m.pc + 8 })

/-- The state after an instruction that only moves PC. -/
def State.afterPc (s : State) (u : MUnit) (pc : Nat) : State := (s.wake u).modMki u (fun m => { m with pc := pc })

/-- All ones where a compare holds, else 0 (R185). -/
def onesIf (b : Bool) : Word := if b then BitVec.allOnes 64 else 0

/-- Everything of the state but the records of the unit u stands as before: registers of register space, memories, caches' homes, faults,
queues and links. -/
def State.sameButUnit (s t : State) (u : MUnit) : Prop :=
  t = { s with crus := t.crus, cores := t.cores } ∧
  (∀ n, (∀ m : Fin 72, u = .cru m → n ≠ m.val) → t.cru n = s.cru n) ∧
  (∀ i, (∀ e c : Fin 4, u = .core e c → i ≠ coreIx e c) → t.core i = s.core i)

/-- In the unit's own record nothing changes but its scalar state (a control core also leaves WFI, R194). -/
def State.sameUnitRest (s t : State) : MUnit → Prop
  | .cru n => t.cru n.val = { s.cru n.val with mki := (t.cru n.val).mki }
  | .core e c => t.core (coreIx e c) = { s.core (coreIx e c) with mki := (t.core (coreIx e c)).mki, wfi := false }

/-- The reads of one byte of each byte memory of the block. -/
def State.byteAt (s : State) (m : Nat) (a : Nat) : Byte := if m = 0 then memGet s.mould a else if m = 1 then memGet s.code a else memGet s.stack a

/-- The other registers of the unit: every s and p register but s[d], the flags, the CSRs and the trap registers. -/
abbrev sameButS (m k : Mki) (d : Nat) : Prop :=
  (∀ r, r ≠ d → k.sreg r = m.sreg r) ∧ k = { m with s := k.s, pc := k.pc }

/-- The state after a change of a unit's scalar state that also moves PC to the next instruction. -/
def State.afterMki (s : State) (u : MUnit) (f : Mki → Mki) : State := (s.wake u).modMki u (fun m => { f m with pc := m.pc + 8 })

/-- A CSR instruction's unused fields are zero and its CSR number is k (R190); ASTAT waits for MQ0, MQ1 and VQ (R191); a CSR of the
control profile is reached by a control core only (R149). -/
abbrev State.csrReach (s : State) (u : MUnit) (f : FmtE) (k : Nat) : Prop :=
  f.sc = 0 ∧ f.rsv = false ∧ f.imm.toNat = k ∧ k < 4096 ∧ (k = 0 → s.mathDrained u = true) ∧ (isCru u = true → ¬(0x100 ≤ k ∧ k < 0x200))

/-- A crucible's unit. -/
abbrev cruU (n : Fin 72) : MUnit := .cru n

/-- A control core's unit. -/
abbrev coreU (e c : Fin 4) : MUnit := .core e c

/-! ## Queued instructions of a crucible -/

/-- A crucible whose instruction has left the sequencer for its queue: PC at the next instruction, and one more entry queued. -/
def Cru.past (c : Cru) : Cru := { c with mki := { c.mki with pc := c.mki.pc + 8 }, nseq := c.nseq + 1 }

/-- The state after an instruction of crucible n that changes the crucible alone. -/
def State.cruNext (s : State) (n : Fin 72) (f : Cru → Cru) : State := s.modCru n.val (fun c => f c.past)

/-- Crucible n can dispatch the instruction, its VQ is empty, so that the instruction starts at once (R75), and its XQ holds nothing that
goes on after it. Its lanes follow the guard one by one (R147). -/
abbrev State.vqReady (s : State) (n : Fin 72) (g : Guard) (r : Uses) : Prop :=
  s.canDispatch (.cru n) g r ∧ (s.cru n.val).vq = [] ∧ (s.cru n.val).xq = []

/-- Crucible n can run the tile instruction, the queues of its MUs are empty, and its XQ holds nothing that goes on after it. -/
abbrev State.mqReady (s : State) (n : Fin 72) (f : FmtD) (r : Uses) : Prop :=
  s.canRun (.cru n) f.g r ∧ (s.cru n.val).mq0 = [] ∧ (s.cru n.val).mq1 = [] ∧ (s.cru n.val).xq = []

/-- The state after an instruction of crucible n that traps in queue q: the trap is held with the instruction's PC, every queued entry is
discarded, and no register, tile, mould byte or flag changes (R148, R151). -/
def State.trapNext (s : State) (n : Fin 72) (q : QueueId) (code addr : Nat) : State :=
  s.cruNext n (fun c => { c with trap := some ⟨queueCode q, code, (s.mki (.cru n)).pc, addr⟩, mq0 := [], mq1 := [], vq := [], xq := [], seqw := .none })

/-- Crucible n can run the instruction and its XQ is empty. -/
abbrev State.xqReady (s : State) (n : Fin 72) (g : Guard) (r : Uses) : Prop := s.canRun (.cru n) g r ∧ (s.cru n.val).xq = []

/-- The guard mask of an instruction on crucible n (R147). -/
def State.maskOf (s : State) (n : Fin 72) (g : Guard) : Word := (s.mki (.cru n)).guard g

/-- Lane k of v[r] of crucible n. -/
def State.laneOf (s : State) (n : Fin 72) (r : BitVec 6) (k : Nat) : Reg := lane ((s.cru n.val).vreg r.toNat) k

/-- Element (i, j) of the tile an instruction names. -/
def State.tileAt (s : State) (n : Fin 72) (f : FmtD) (i j : Nat) : Reg := lane ((s.cru n.val).trow (b2n f.mu) f.t.toNat i) j

/-- Only the tile an instruction names, the flags (which become `fl`) and PC of crucible n differ, and the weight buffers (which become `wb`). -/
def State.onlyTile (s t : State) (n : Fin 72) (f : FmtD) (fl : BitVec 6) (wb : Tbl (List Byte)) : Prop :=
  t = s.cruNext n (fun c => { c with t := (t.cru n.val).t, wbuf := wb, mki := { c.mki with astat := fl } }) ∧
  ∀ mu k r, ¬(mu = b2n f.mu ∧ k = f.t.toNat) → mu < 2 → k < 4 → r < 64 → (t.cru n.val).trow mu k r = (s.cru n.val).trow mu k r

/-- Crucible n's sticky flags. -/
def State.flagsOf (s : State) (n : Fin 72) : BitVec 6 := (s.cru n.val).mki.astat

/-- Crucible n's weight buffers. -/
def State.weights (s : State) (n : Fin 72) : Tbl (List Byte) := (s.cru n.val).wbuf

/-- The flags of the elements (i, j) of a tile, together. -/
def tileFlags (e : Nat → Nat → Flags) : Flags := Flags.all ((List.range 64).flatMap (fun i => (List.range 64).map (e i)))

/-! ## Memory instructions -/

/-- Crucible n's cache holds the line, and nothing is under way for it: no fetch, no write-back, no posted write. -/
abbrev State.lineHere (s : State) (n : Fin 72) (line : Nat) (x : CLine) : Prop :=
  (s.cru n.val).cst ≠ .invalidating ∧ s.posted n.val line = false ∧ tblFind (s.cru n.val).wb line = none ∧
  tblFind (s.cru n.val).miss line = none ∧ tblFind (s.cru n.val).cache line = some x

/-- A NORMAL pool access of a crucible that meets no trap: below 2^41, aligned to its size, within a segment of the bound flask that
grants the right (R139, R140, R167). -/
abbrev State.poolOk (s : State) (n : Fin 72) (a size : Nat) (right : Right) : Prop :=
  a < 2 ^ 41 ∧ a % size = 0 ∧ s.flaskCheck (s.cru n.val).mki.flask right true a size = none ∧ s.cruDevice n.val a = false

/-- The bytes [a, a + len) of a line's data, as a number; `a` is a pool address in the line. -/
def lineNat (d : LineData) (a len : Nat) : Nat := leNat ((List.range len).map (fun k => lineByte d (a % 64 + k)))

/-- No NORMAL or DEVICE rule stops an access of crucible n to [a, a + size): RANGE, MISALIGNED and FLASK in their order (R148). -/
abbrev State.accessOk (s : State) (n : Fin 72) (a size : Nat) (right : Right) : Prop := s.cruCheck n.val a size right true = none

/-- Crucible n has neither a copy of a line nor anything under way for it, and may send a request for it to home k. -/
abbrev State.lineAway (s : State) (n : Fin 72) (line k : Nat) : Prop :=
  (s.cru n.val).cst ≠ .invalidating ∧ s.posted n.val line = false ∧ tblFind (s.cru n.val).wb line = none ∧
  tblFind (s.cru n.val).miss line = none ∧ tblFind (s.cru n.val).cache line = none ∧ s.homeUp line = some k ∧
  (s.cru n.val).miss.length < 384 ∧ s.hasCredit n.val k = true

/-- As `lineAway`, where the line has no home in service (R239, R514). -/
abbrev State.lineLost (s : State) (n : Fin 72) (line : Nat) : Prop :=
  (s.cru n.val).cst ≠ .invalidating ∧ s.posted n.val line = false ∧ tblFind (s.cru n.val).wb line = none ∧
  tblFind (s.cru n.val).miss line = none ∧ tblFind (s.cru n.val).cache line = none ∧ s.homeUp line = none

/-- No earlier instruction of crucible n's other queues may yet trap, so that a store of XQ need not wait (R361). -/
abbrev State.storesFree (s : State) (n : Fin 72) : Prop :=
  ∀ e ∈ (s.cru n.val).mq0 ++ (s.cru n.val).mq1 ++ (s.cru n.val).vq, (e.mayTrap && e.place < (s.cru n.val).nseq) = false

/-- The instruction has left the sequencer: PC is at the next one, and registers and flags stand. -/
abbrev State.movedOn (s t : State) (n : Fin 72) : Prop := t.mki (.cru n) = { s.mki (.cru n) with pc := (s.mki (.cru n)).pc + 8 }

/-- The instruction waits at the head of crucible n's XQ, and its message for the line is on its way to home k. -/
abbrev State.asked (s t : State) (n : Fin 72) (i : Instr) (kd : MsgKind) (line k : Nat) : Prop :=
  s.movedOn t n ∧ (∃ q, (t.cru n.val).xq = [.op q] ∧ q.ins = i) ∧ ∃ m ∈ t.net, m.kind = kd ∧ m.aid = n.val ∧ m.home = k ∧ m.line = line

/-- The instruction has trapped in crucible n's XQ, which is empty again, and has written no register (R148, R151). -/
abbrev State.trappedXq (s t : State) (n : Fin 72) (code addr : Nat) : Prop :=
  s.movedOn t n ∧ (t.cru n.val).trap = some ⟨queueCode .xq, code, (s.mki (.cru n)).pc, addr⟩ ∧ (t.cru n.val).xq = []

/-- Only registers, crucible n's own record and its own reservations differ. -/
def State.onlyCru (s t : State) (n : Fin 72) : Prop :=
  t = { s with regs := t.regs, crus := t.crus, kss := t.kss } ∧ (∀ m, m ≠ n.val → t.cru m = s.cru m) ∧
  (∀ a, a ≠ aCr n.val 0x4020 → a ≠ aCr n.val 0x4024 → t.reg a = s.reg a) ∧
  (∀ k, t.ks k = { s.ks k with resvs := (t.ks k).resvs }) ∧ (∀ k m, m ≠ n.val → tblFind (t.ks k).resvs m = tblFind (s.ks k).resvs m)

/-- The effective address of a format C instruction on a unit. -/
def State.addrOf (s : State) (u : MUnit) (f : FmtC) : Nat := effAddr (s.sOf u f.base) (s.sOf u f.idx) f.sh f.off

/-- A control core's access lies in its code window, aligned, with no poisoned word. -/
abbrev State.codeOk (s : State) (e _c : Fin 4) (a size : Nat) : Prop :=
  s.inCodeWindow a = true ∧ a < 2 ^ 41 ∧ a % size = 0 ∧ s.codeBad e.val (a - s.codeWindow) size = none

/-! ## Register access -/

/-- A control core of the active quoin, its quoin in the build, in service (R32, R89). -/
abbrev State.fwCore (s : State) (e _c : Fin 4) : Prop := e.val = s.active ∧ hasE s.build e.val = true ∧ s.rst.phase = .none

/-- A 32-bit word whose write does nothing but change its fields: no command field, no value wider than a word, not hidden. -/
abbrev State.plainWord (s : State) (w : Win) (o : Nat) : Prop :=
  winOf (winBase w + o) = some (w, o) ∧ o / 0x1000 % 4 = 0 ∧ o % 4 = 0 ∧ (wideOf w o).2 = 1 ∧ s.hidden w o = false ∧ woWord w o = false ∧
  o ≠ 0xFF4 ∧
  (match w with
   | .ld => True
   | .sp => o < 0x100000
   | .co => o ≠ 0 ∧ o ≠ 0x28
   | .ft => o ≠ 8
   | .ml => o ≠ 0
   | .cr _ => True
   | .ks _ => o ≠ 0xC000 ∧ o ≠ 0xC510 ∧ o ≠ 0xC518
   | .gt _ => o < 0x8000 ∨ (0x40000 ≤ o ∧ o < 0x80000 ∧ 0x400 ≤ o % 0x4000 ∧ o % 0x4000 ≠ 0x408)
   | .qn => (o < 0x30000 ∧ o ≠ 0x20000) ∨ (0x400000 ≤ o ∧ o % 0x4000 ≠ 0))

/-- A value of more than one word whose write does nothing but change its fields: no command, no cursor, and none that its block's state now
shuts (R444, R546). -/
abbrev State.plainWide (s : State) (w : Win) (o : Nat) : Prop :=
  match w with
  | .ks k => ¬(0xC100 ≤ o ∧ o < 0xC140) ∨ s.fld (aKs k 0xC000) 0 1 ≠ 1
  | .gt g =>
    if o % 0x4000 < 0x400 then (s.hq (256 * g + 16 * ((o - 0x40000) / 0x4000) + o % 0x4000 / 0x40)).st = .disabled
    else s.fld (nqReg (16 * g + (o - 0x40000) / 0x4000) 0x408) 8 1 ≠ 1
  | .qn => o ≠ 0x30010 ∧ ¬((o = 0x20008 ∨ o = 0x20010) ∧ s.fld 0x20000 0 1 = 1)
  | .ft | .ml => False
  | _ => True

/-- What Table 2.1 makes of value v with data d, on the fields of mask m. -/
def pageOp (p : Page) (v d m : Reg) : Reg :=
  match p with
  | .base => (v &&& ~~~m) ||| (d &&& m)
  | .set => v ||| (d &&& m)
  | .clr => v &&& ~~~(d &&& m)
  | .tog => v ^^^ (d &&& m)

/-- The block address of a word through a page (R26). -/
def pageAddr (w : Win) (o : Nat) (p : Page) : BitVec 32 :=
  BitVec.ofNat 32 (winBase w + o + 0x1000 * (match p with | .base => 0 | .set => 1 | .clr => 2 | .tog => 3))

/-! ## Host queues -/

/-- The entry of slot n of queue q is DONE with a status and a RESULT (R434). -/
abbrev State.slotDone (t : State) (q n status : Nat) (result : Word) : Prop :=
  ∃ e, tblFind (t.hq q).entries n = some e ∧ e.st = .done ∧ e.status = status ∧ e.result = result

/-- Queue q takes a slot now (R428), and no earlier command of it is unfinished (R433). -/
abbrev State.takesSlot (s : State) (q : Nat) : Prop :=
  s.consumes q = true ∧ tblFind (s.hq q).entries ((s.hq q).sqHead + 1) = none ∧ ∀ e ∈ (s.hq q).entries, e.2.st ≠ .accepted

/-- The words of a command that it does not use are zero (R426). -/
abbrev cmdPlain (c : CmdArgs) (words : Nat) : Prop := allZero (c.payload.drop words) = true

/-- A request that an agent has put on its way to a home. -/
abbrev State.sentTo (t : State) (kind : MsgKind) (aid line : Nat) : Prop := ∃ m ∈ t.net, m.kind = kind ∧ m.aid = aid ∧ m.line = line

/-! ## Coherence -/

/-- Keystone k admits requests, and nothing waits there: no request, listed or early, no internal transaction to be opened, no way given. -/
abbrev State.homeIdle (s : State) (k : Nat) : Prop :=
  s.keyUp k = true ∧ (s.ks k).stopped = false ∧ (s.ks k).hst ≠ .invalidating ∧ s.fld (aKs k 0xC000) 0 1 = 1 ∧
  (s.ks k).queue = [] ∧ (s.ks k).retry = [] ∧ (s.ks k).resv = [] ∧ (s.ks k).jobs = [] ∧ s.early = []

/-- An idle home with no open transaction. -/
abbrev State.homeQuiet (s : State) (k : Nat) : Prop := s.homeIdle k ∧ (s.ks k).txns = []

/-- An idle home with one open transaction. -/
abbrev State.homeOpen (s : State) (k : Nat) (t : Txn) : Prop := s.homeIdle k ∧ (s.ks k).txns = [t]

/-- A line of an ordinary block, whose value at its home is that of the hearth or the stack: no table of the foundation row (R244), no
unspecified data (R265), and the stacks in their canonical form. -/
abbrev State.plainLine (s : State) (k sl : Nat) : Prop := s.tableAt k sl = none ∧ s.unspec = [] ∧ Memory.wf s.stack = true

/-- A request whose turn in its requester's sequence has come (R387). -/
abbrev State.ordered (s : State) (m : Msg) (kd : MsgKind) : Prop := s.inSequence { m with kind := kd } = true

/-- The open transaction of keystone k waits for the answers of these agents to a snoop of one kind, which is on its way to each. -/
abbrev State.snooping (t : State) (k sl line : Nat) (kd : MsgKind) (as : List Nat) : Prop :=
  (∃ u, (t.ks k).txns = [u] ∧ u.sla = sl ∧ u.wait = as) ∧ ∀ a ∈ as, ∃ q ∈ t.net, q.kind = kd ∧ q.aid = a ∧ q.home = k ∧ q.line = line

/-- The transaction waits for agent n's answer alone. -/
abbrev Txn.waitsFor (t : Txn) (n : Nat) : Prop :=
  t.wait = [n] ∧ t.blocks = [] ∧ t.wbp = [] ∧ t.dataWait = [] ∧ t.wbSeen = [] ∧ t.evict = none ∧ t.evictReg = none ∧ t.memPend = false

/-- A message for agent a about a line, of a kind and a transaction tag, is on its way. -/
abbrev State.told (t : State) (kind : MsgKind) (a line tag : Nat) : Prop := ∃ m ∈ t.net, m.kind = kind ∧ m.aid = a ∧ m.line = line ∧ m.tag = tag

/-- As `told`, with data and its poison bit. -/
abbrev State.toldData (t : State) (kind : MsgKind) (a line tag : Nat) (v : LineData × Bool) : Prop :=
  ∃ m ∈ t.net, m.kind = kind ∧ m.aid = a ∧ m.line = line ∧ m.tag = tag ∧ (m.data, m.poison) = v

/-- Crucible n answers messages, and its cache has nothing under way: no operation of its transfer queue, no miss, no write-back, no range
command, no snoop kept back. -/
abbrev State.cruStill (s : State) (n : Nat) : Prop :=
  isCruAid n = true ∧ hasCru s.build n = true ∧ (s.cru n).st ≠ .failed ∧ (s.cru n).st ≠ .off ∧ (s.cru n).cst ≠ .invalidating ∧
  (s.cru n).xq = [] ∧ (s.cru n).miss = [] ∧ (s.cru n).wb = [] ∧ (s.cru n).range = none ∧ (s.cru n).snps = []

/-- Host domain h is served by CXL.mem: its link is in L0, it is attached, and nothing holds its requests back. -/
abbrev State.hostServed (s : State) (h : Nat) : Prop :=
  (s.gate (h / 16)).inL0 = true ∧ (s.hd h).biDead = false ∧ s.attached.contains h = true ∧ s.rst.withheld = false ∧ s.inReset = false ∧
  (s.gate (h / 16)).ideBad = [] ∧ s.dead.contains (aidHd h) = false

/-! ## Memories -/

/-- The three byte memories of the block are in their canonical form. -/
def State.memFormed (s : State) : Bool := Memory.wf s.mould && Memory.wf s.code && Memory.wf s.stack

end Sys2Proof.Machine
end

