-- ==== Sys2Proof/Certificates/Slice0/Obligations.lean ====
section
/-! DEFINITION. The statements of this model for its provers. Each docstring names the rules a statement is drawn from; a statement is
'stated' in OBLIGATIONS.json only where its Lean states the cited rules whole. -/

open Sys2Proof Sys2Proof.Machine

/-! ## The machine as a whole -/

/-- A step takes the command at the front of the queue and is exec of it on the state with the queue's rest; on an empty queue the block
idles (the model's choice, log entry 6). -/
def Obligations.StepRunsFront : Prop :=
  (∀ (c : Instr) (rest : List Instr) (s : State), step { s with pending := c :: rest } = exec c { s with pending := rest }) ∧
  (∀ s : State, s.pending = [] → step s = .next s)

/-- Every command is answered with a next state in every state: no command of this block stops the model (log entry 5, the model's
choice: a command that cannot occur leaves the state as it stands). -/
def Obligations.EveryCommandAnswers : Prop :=
 ∀ (c : Instr) (s : State), ∃ t, exec c s = .next t

/-- The effect of a command lies outside the queue of the commands that wait, and no command changes the build (Table 2.2: the build is
fixed at manufacture). -/
def Obligations.CommandsKeepQueueAndBuild : Prop :=
  ∀ (c : Instr) (s t : State), exec c s = .next t → t.pending = s.pending ∧ t.build = s.build

/-- Drawn from R84, R240, R482 give the machine three byte memories: the moulds, the code stores and the stacks. Every step keeps each in
its one form: addresses strictly rising, and no cell that holds what an unlisted address reads as. -/
def Obligations.StepsKeepMemoryForm : Prop :=
  ∀ s t : State, s.memFormed = true → step s = .next t → t.memFormed = true

/-- The state after reset: the memories list nothing and have their form, no command waits, every crucible is OFF, no reset phase has
begun, and the registers hold what the spec gives them: FT_REACTn the reactions of Table 22.3, ML_CTRL a FREEZE_LIMIT of 16. -/
def Obligations.ResetState : Prop :=
  State.reset.memFormed = true ∧ State.reset.mould = [] ∧ State.reset.code = [] ∧ State.reset.stack = [] ∧ State.reset.pending = [] ∧
  (∀ n : Fin 72, (State.reset.cru n.val).st = .off) ∧ State.reset.ml.written = 0 ∧ State.reset.ml.base = 0 ∧ State.reset.tb.running = false ∧
  (∀ n, n < 64 → State.reset.reg (aFt (0x4000 + 4 * n)) = BitVec.ofNat 32 (srcInfo n).react) ∧ State.reset.fld (aMl 0) 8 8 = 16

/-- R242: the pool map as the rule computes it, one-to-one onto the addresses of the stacks of the keystones present; the granules of 4
KiB lie each in one stack at consecutive addresses (R240), and past the last row there is no memory (R239). -/
def Obligations.PoolMapIsOneToOne : Prop :=
  (∀ r, r < 2 ^ 18 → BitVec.ofNat 5 (mapRot r) =
    let b := BitVec.ofNat 18 r
    (b.extractLsb' 0 5) ^^^ (b.extractLsb' 5 5) ^^^ (b.extractLsb' 10 5) ^^^ (b.extractLsb' 15 3).setWidth 5) ∧
  ∀ s : State,
    let K := s.kCount
    (∀ ppa, s.poolSize ≤ ppa → s.poolMap ppa = none) ∧
    (∀ ppa, ppa < s.poolSize →
      let row := ppa / (K * 2 ^ 30)
      let o := ppa % (K * 2 ^ 30)
      let near := s.isNear (row / 8)
      let n := if near then 3 else K
      let g := (if near then o % (3 * 2 ^ 30) else o) / 2 ^ 12
      let r := g / n
      let q := (g + mapRot r) % n
      ∃ k sla, s.poolMap ppa = some (k, sla) ∧ k ∈ buildKeys s.build ∧ sla = row * 2 ^ 30 + r * 2 ^ 12 + ppa % 2 ^ 12 ∧ sla < 2 ^ 36 ∧
        k = (if near then 3 * s.groups.getD (o / (3 * 2 ^ 30)) 0 + q else (buildKeys s.build).getD q 0) ∧ s.poolUnmap k sla = ppa) ∧
    (∀ k sla, k ∈ buildKeys s.build → sla < 2 ^ 36 → s.poolUnmap k sla < s.poolSize ∧ s.poolMap (s.poolUnmap k sla) = some (k, sla)) ∧
    (∀ ppa i, ppa % 2 ^ 12 = 0 → i < 2 ^ 12 → s.poolMap (ppa + i) = (s.poolMap ppa).map (fun x => (x.1, x.2 + i)) ∧
      (s.homeOf ((ppa + i) / 64)).map (·.1) = (s.poolMap ppa).map (·.1))

/-! ## MKI scalar instructions -/

/-- Drawn from R185, R186: the three-register scalar instructions. On a unit that can dispatch and whose guard lets the instruction
execute, with the unused fields zero, the next state is the one with s[D] written and PC at the next instruction. -/
def Obligations.ScalarRegisterOps : Prop :=
  ∀ (s : State) (u : MUnit) (f : FmtA), s.canRun u f.g ⟨[f.d, f.a, f.b], []⟩ → resA f = false →
    let x := s.sOf u f.a
    let y := s.sOf u f.b
    exec (.add u f) s = .next (s.afterS u f.d (x + y)) ∧
    exec (.sub u f) s = .next (s.afterS u f.d (x - y)) ∧
    exec (.and u f) s = .next (s.afterS u f.d (x &&& y)) ∧
    exec (.or u f) s = .next (s.afterS u f.d (x ||| y)) ∧
    exec (.xor u f) s = .next (s.afterS u f.d (x ^^^ y)) ∧
    exec (.shl u f) s = .next (s.afterS u f.d (x <<< bitsOf y 0 6)) ∧
    exec (.shr u f) s = .next (s.afterS u f.d (x >>> bitsOf y 0 6)) ∧
    exec (.sra u f) s = .next (s.afterS u f.d (x.sshiftRight (bitsOf y 0 6))) ∧
    exec (.min u f) s = .next (s.afterS u f.d (if y.toInt < x.toInt then y else x)) ∧
    exec (.max u f) s = .next (s.afterS u f.d (if x.toInt < y.toInt then y else x)) ∧
    exec (.minu u f) s = .next (s.afterS u f.d (if y.toNat < x.toNat then y else x)) ∧
    exec (.maxu u f) s = .next (s.afterS u f.d (if x.toNat < y.toNat then y else x)) ∧
    exec (.mul u f) s = .next (s.afterS u f.d (BitVec.ofNat 64 (x.toNat * y.toNat))) ∧
    exec (.mulh u f) s = .next (s.afterS u f.d (BitVec.ofInt 64 (x.toInt * y.toInt / 2 ^ 64))) ∧
    exec (.mulhu u f) s = .next (s.afterS u f.d (BitVec.ofNat 64 (x.toNat * y.toNat / 2 ^ 64))) ∧
    (y ≠ 0 → exec (.div u f) s = .next (s.afterS u f.d (BitVec.ofInt 64 (x.toInt.tdiv y.toInt)))) ∧
    (y ≠ 0 → exec (.divu u f) s = .next (s.afterS u f.d (BitVec.ofNat 64 (x.toNat / y.toNat)))) ∧
    (y ≠ 0 → exec (.rem u f) s = .next (s.afterS u f.d (BitVec.ofInt 64 (x.toInt.tmod y.toInt)))) ∧
    (y ≠ 0 → exec (.remu u f) s = .next (s.afterS u f.d (BitVec.ofNat 64 (x.toNat % y.toNat))))

/-- R186: a divisor of 0, and a signed division of −2^63 by −1, complete with the values the rule gives. -/
def Obligations.DivisionNeverTraps : Prop :=
  ∀ (s : State) (u : MUnit) (f : FmtA), s.canRun u f.g ⟨[f.d, f.a, f.b], []⟩ → resA f = false →
    (s.sOf u f.b = 0 →
      exec (.div u f) s = .next (s.afterS u f.d (BitVec.allOnes 64)) ∧
      exec (.divu u f) s = .next (s.afterS u f.d (BitVec.allOnes 64)) ∧
      exec (.rem u f) s = .next (s.afterS u f.d (s.sOf u f.a)) ∧
      exec (.remu u f) s = .next (s.afterS u f.d (s.sOf u f.a))) ∧
    (s.sOf u f.a = 0x8000000000000000 → s.sOf u f.b = 0xFFFFFFFFFFFFFFFF →
      exec (.div u f) s = .next (s.afterS u f.d 0x8000000000000000) ∧
      exec (.rem u f) s = .next (s.afterS u f.d 0))

/-- Drawn from R185: the instructions on one register or an immediate. R185: the immediate forms take IMM sign-extended to 64 bits. -/
def Obligations.ScalarOneOperandAndImmediateOps : Prop :=
  ((∀ (s : State) (u : MUnit) (f : FmtA), s.canRun u f.g ⟨[f.d, f.a], []⟩ → resA f = false → f.b = 0 →
     (∃ n, exec (.clz u f) s = .next (s.afterS u f.d (BitVec.ofNat 64 n)) ∧ n ≤ 64 ∧ (n < 64 → (s.sOf u f.a).getLsbD (63 - n) = true) ∧
       ∀ i, 64 - n ≤ i → i < 64 → (s.sOf u f.a).getLsbD i = false) ∧
     (∃ n, exec (.ctz u f) s = .next (s.afterS u f.d (BitVec.ofNat 64 n)) ∧ n ≤ 64 ∧ (n < 64 → (s.sOf u f.a).getLsbD n = true) ∧
       ∀ i, i < n → (s.sOf u f.a).getLsbD i = false) ∧
     exec (.popc u f) s = .next (s.afterS u f.d (BitVec.ofNat 64 ((List.range 64).countP (fun i => (s.sOf u f.a).getLsbD i))))) ∧
   (∀ (s : State) (u : MUnit) (f : FmtB), s.canRun u f.g ⟨[f.d], []⟩ → f.a = 0 →
     exec (.movi u f) s = .next (s.afterS u f.d (f.imm.signExtend 64)) ∧
     exec (.movz u f) s = .next (s.afterS u f.d (f.imm.setWidth 64)) ∧
     exec (.movhi u f) s = .next (s.afterS u f.d (f.imm ++ (s.sOf u f.d).setWidth 32)))) ∧
  (∀ (s : State) (u : MUnit) (f : FmtB), s.canRun u f.g ⟨[f.d, f.a], []⟩ →
     let x := s.sOf u f.a
     let y : Word := f.imm.signExtend 64
     exec (.addi u f) s = .next (s.afterS u f.d (x + y)) ∧
     exec (.subi u f) s = .next (s.afterS u f.d (x - y)) ∧
     exec (.andi u f) s = .next (s.afterS u f.d (x &&& y)) ∧
     exec (.ori u f) s = .next (s.afterS u f.d (x ||| y)) ∧
     exec (.xori u f) s = .next (s.afterS u f.d (x ^^^ y)) ∧
     exec (.shli u f) s = .next (s.afterS u f.d (x <<< bitsOf f.imm 0 6)) ∧
     exec (.shri u f) s = .next (s.afterS u f.d (x >>> bitsOf f.imm 0 6)) ∧
     exec (.srai u f) s = .next (s.afterS u f.d (x.sshiftRight (bitsOf f.imm 0 6))) ∧
     exec (.mini u f) s = .next (s.afterS u f.d (if y.toInt < x.toInt then y else x)) ∧
     exec (.maxi u f) s = .next (s.afterS u f.d (if x.toInt < y.toInt then y else x)) ∧
     exec (.minui u f) s = .next (s.afterS u f.d (if y.toNat < x.toNat then y else x)) ∧
     exec (.maxui u f) s = .next (s.afterS u f.d (if x.toNat < y.toNat then y else x)))

/-- Drawn from R185, R187: compares write every bit of their p destination; the logic of p registers and their copies from and to s
registers. -/
def Obligations.ScalarComparesAndPredicates : Prop :=
  (∀ (s : State) (u : MUnit) (f : FmtA), s.canRun u f.g ⟨[f.a, f.b], [f.d]⟩ → resA f = false → f.d.toNat < 16 →
    let x := s.sOf u f.a
    let y := s.sOf u f.b
    exec (.ceq u f) s = .next (s.afterP u f.d (onesIf (x = y))) ∧
    exec (.cne u f) s = .next (s.afterP u f.d (onesIf (x ≠ y))) ∧
    exec (.clt u f) s = .next (s.afterP u f.d (onesIf (x.toInt < y.toInt))) ∧
    exec (.cle u f) s = .next (s.afterP u f.d (onesIf (x.toInt ≤ y.toInt))) ∧
    exec (.cltu u f) s = .next (s.afterP u f.d (onesIf (x.toNat < y.toNat))) ∧
    exec (.cleu u f) s = .next (s.afterP u f.d (onesIf (x.toNat ≤ y.toNat)))) ∧
  (∀ (s : State) (u : MUnit) (f : FmtB), s.canRun u f.g ⟨[f.a], [f.d]⟩ → f.d.toNat < 16 →
    let x := s.sOf u f.a
    let y : Word := f.imm.signExtend 64
    exec (.ceqi u f) s = .next (s.afterP u f.d (onesIf (x = y))) ∧
    exec (.cnei u f) s = .next (s.afterP u f.d (onesIf (x ≠ y))) ∧
    exec (.clti u f) s = .next (s.afterP u f.d (onesIf (x.toInt < y.toInt))) ∧
    exec (.clei u f) s = .next (s.afterP u f.d (onesIf (x.toInt ≤ y.toInt))) ∧
    exec (.cltui u f) s = .next (s.afterP u f.d (onesIf (x.toNat < y.toNat))) ∧
    exec (.cleui u f) s = .next (s.afterP u f.d (onesIf (x.toNat ≤ y.toNat)))) ∧
  (∀ (s : State) (u : MUnit) (f : FmtA), s.canRun u f.g ⟨[], [f.d, f.a, f.b]⟩ → resA f = false → f.d.toNat < 16 → f.a.toNat < 16 →
    (f.b.toNat < 16 →
      exec (.pand u f) s = .next (s.afterP u f.d (s.pOf u f.a &&& s.pOf u f.b)) ∧
      exec (.por u f) s = .next (s.afterP u f.d (s.pOf u f.a ||| s.pOf u f.b)) ∧
      exec (.pxor u f) s = .next (s.afterP u f.d (s.pOf u f.a ^^^ s.pOf u f.b))) ∧
    (f.b = 0 → exec (.pnot u f) s = .next (s.afterP u f.d (~~~ s.pOf u f.a)))) ∧
  (∀ (s : State) (u : MUnit) (f : FmtA), resA f = false → f.b = 0 →
    (s.canRun u f.g ⟨[f.a], [f.d]⟩ → f.d.toNat < 16 → exec (.pfroms u f) s = .next (s.afterP u f.d (s.sOf u f.a))) ∧
    (s.canRun u f.g ⟨[f.d], [f.a]⟩ → f.a.toNat < 16 →
      exec (.ptos u f) s = .next (s.afterS u f.d (s.pOf u f.a)) ∧
      exec (.pcnt u f) s = .next (s.afterS u f.d (BitVec.ofNat 64 ((List.range 64).countP (fun i => (s.pOf u f.a).getLsbD i))))))

/-- Drawn from R188, Table 8.3: where each branch goes and what it writes. PC is the byte address of the branch; targets are 64-bit sums. -/
def Obligations.BranchTargets : Prop :=
  ∀ (s : State) (u : MUnit) (f : FmtB),
    let pc := (s.mki u).pc
    let rel := (BitVec.ofNat 64 pc + f.imm.signExtend 64 * 8).toNat
    let next := s.wake u
    (s.canRun u f.g ⟨[], []⟩ → f.d = 0 → f.a = 0 → exec (.br u f) s = .next (s.afterPc u rel)) ∧
    (s.canRun u f.g ⟨[f.d], []⟩ → f.a = 0 →
      exec (.call u f) s = .next (next.modMki u (fun m => { m.setS f.d.toNat (BitVec.ofNat 64 (pc + 8)) with pc := rel }))) ∧
    (s.canRun u f.g ⟨[f.a], []⟩ → f.d = 0 → exec (.jr u f) s = .next (s.afterPc u (s.sOf u f.a + f.imm.signExtend 64).toNat)) ∧
    (s.canRun u f.g ⟨[f.a, f.d], []⟩ →
      exec (.jalr u f) s = .next (next.modMki u (fun m =>
        { m.setS f.d.toNat (BitVec.ofNat 64 (pc + 8)) with pc := (s.sOf u f.a + f.imm.signExtend 64).toNat }))) ∧
    (s.canRun u f.g ⟨[f.a], []⟩ → f.d = 0 →
      exec (.bnz u f) s = .next (next.modMki u (fun m =>
        { m.setS f.a.toNat (s.sOf u f.a - 1) with pc := if s.sOf u f.a - 1 = 0 then pc + 8 else rel })))

/-- What a write of an s register does: s[0] keeps reading 0, and nothing else of the state changes but the unit's PC and its wait in
WFI. With the value clauses above this is the frame of the scalar instructions. R147: an instruction that executes as a whole has no
effect when guard bit 0 is 0, whatever its operands, but for the static checks that R148 judges whatever the guard: it only moves PC.
Stated for the three-register and immediate scalar instructions, the branches on a register, BREAK, and the loads and stores of one
register on a crucible. R141, R143, R148: the static checks come before the guard and before any effect: a field that an instruction does
not use and that is not zero traps with ILLEGAL, and on a control core an instruction of the crucible profile traps with PROFILE. Stated
for the three-register scalar instructions, and for tile, vector and transfer instructions. -/
def Obligations.ScalarFrameAndGuard : Prop :=
  (∀ (s : State) (u : MUnit) (d : BitVec 6) (v : Word),
     let t := s.afterS u d v
     s.sameButUnit t u ∧ s.sameUnitRest t u ∧ sameButS (s.mki u) (t.mki u) d.toNat ∧ (t.mki u).pc = (s.mki u).pc + 8 ∧
     (t.mki u).sreg d.toNat = (if d = 0 then 0 else v) ∧ (∀ m a, t.byteAt m a = s.byteAt m a)) ∧
  (∀ (s : State) (u : MUnit) (g : Guard), ((s.mki u).guard g).getLsbD 0 = false →
     let next := s.afterPc u ((s.mki u).pc + 8)
     (∀ f : FmtA, f.g = g → s.canDispatch u g ⟨[f.d, f.a, f.b], []⟩ → resA f = false →
       ∀ i ∈ [Instr.add u f, .sub u f, .and u f, .or u f, .xor u f, .shl u f, .shr u f, .sra u f, .min u f, .max u f, .minu u f, .maxu u f,
         .mul u f, .mulh u f, .mulhu u f, .div u f, .divu u f, .rem u f, .remu u f], exec i s = .next next) ∧
     (∀ f : FmtB, f.g = g → s.canDispatch u g ⟨[f.d, f.a], []⟩ →
       ∀ i ∈ [Instr.addi u f, .subi u f, .andi u f, .ori u f, .xori u f, .shli u f, .shri u f, .srai u f, .mini u f, .maxi u f, .minui u f,
         .maxui u f], exec i s = .next next) ∧
     (∀ f : FmtB, f.g = g → s.canDispatch u g ⟨[f.a], []⟩ → f.d = 0 → ∀ i ∈ [Instr.bnz u f, .jr u f], exec i s = .next next) ∧
     (∀ f : FmtE, f.g = g → s.canDispatch u g {} → f.sc = 0 → f.rsv = false → f.a = 0 → exec (.mkiBreak u f) s = .next next) ∧
     (∀ (n : Fin 72) (f : FmtC), u = .cru n → f.g = g → s.canDispatch u g ⟨[f.base, f.idx, f.d], []⟩ → f.rsv = 0 → (s.cru n.val).xq.length < 16 →
       ∀ i ∈ [Instr.ldb u f, .ldbs u f, .ldh u f, .ldhs u f, .ldw u f, .ldws u f, .ldd u f, .stb u f, .sth u f, .stw u f, .std u f],
         exec i s = .next next)) ∧
  ((∀ (s : State) (u : MUnit) (f : FmtA), s.canDispatch u f.g ⟨[f.d, f.a, f.b], []⟩ → resA f = true →
     ∀ i ∈ [Instr.add u f, .sub u f, .and u f, .or u f, .xor u f, .shl u f, .shr u f, .sra u f, .min u f, .max u f, .minu u f, .maxu u f,
       .mul u f, .mulh u f, .mulhu u f, .div u f, .divu u f, .rem u f, .remu u f],
       exec i s = .next ((s.wake u).unitTrap u .seq tIllegal (s.mki u).pc 0)) ∧
   (∀ (s : State) (e c : Fin 4) (f : FmtD) (a : FmtA) (m : FmtC), f.sa = 0 → f.sb = 0 → f.sx = 0 → f.tya = 0 → f.tyb = 0 → f.rm = 0 →
     f.sat = false → f.z = false → f.rsv = 0 → a.c = 0 → a.rm = 0 → a.sat = false → a.ty = 0 → a.rsv = 0 → m.rsv = 0 → a.g = f.g → m.g = f.g →
     s.canDispatch (.core e c) f.g {} →
     let u := MUnit.core e c
     ∀ i ∈ [Instr.mma u f, .tclr u f, .ttr u f, .vaddF32 u a, .vsubF32 u a, .vmulF32 u a, .vld u m, .vst u m],
       exec i s = .next ((s.wake u).coreTrap (coreIx e c) (s.mki u).pc tProfile 0)))

/-! ## CSRs, control instructions, sync counters and barriers -/

/-- Drawn from R190, R149: csrr copies each CSR of Table 6.4 into s[A]; a number the table does not list reads zero. CYCLE is a free
value (log entry 1), so the statement holds for every value it may have. R190, R149: csrw, csrs and csrc write the RW fields of a CSR and
nothing else of the state but PC; a CSR without RW fields, and a number that Table 6.4 does not list, ignore the write. fclr clears the
named flags of ASTAT. -/
def Obligations.CsrAccess : Prop :=
  (∀ (s : State) (u : MUnit) (f : FmtE) (k : Nat), s.canRun u f.g ⟨[f.a], []⟩ → s.csrReach u f k →
     let m := s.mki u
     let go (v : Word) : Prop := exec (.csrr u f) s = .next (s.afterS u f.a v)
     (k = 0x000 → go (m.astat.setWidth 64)) ∧
     (k = 0x001 → go (if m.incomplete then 1 else 0)) ∧
     (k = 0x002 → (∀ n : Fin 72, u = .cru n → go (BitVec.ofNat 64 n.val)) ∧
       (∀ e c : Fin 4, u = .core e c → go (BitVec.ofNat 64 (0x100 + 4 * e.val + c.val)))) ∧
     (k = 0x003 → go (BitVec.ofNat 64 (s.tb.course % 2 ^ 48))) ∧
     (k = 0x004 → ∃ v, exec (.csrr u f) s = .next ({ s with free := s.free + 1 }.afterS u f.a v)) ∧
     (k = 0x005 → go (if isCru u then BitVec.ofNat 64 m.flask else 0)) ∧
     (k = 0x100 → go (BitVec.ofNat 64 (2 * b2n m.inTrap + b2n m.ie))) ∧
     (k = 0x101 → go (BitVec.ofNat 64 m.ecause)) ∧
     (k = 0x102 → go (BitVec.ofNat 64 (8 * (m.epc / 8) % 2 ^ 41))) ∧
     (k = 0x103 → go (BitVec.ofNat 64 (m.eaddr % 2 ^ 41))) ∧
     (k = 0x104 → go (BitVec.ofNat 64 (64 * (m.evec / 64) % 2 ^ 41))) ∧
     (k = 0x105 → ∀ e c : Fin 4, u = .core e c → go ((s.ipend (coreIx e c)).setWidth 64)) ∧
     (k = 0x106 → go (m.ien.setWidth 64)) ∧
     (0x108 ≤ k ∧ k ≤ 0x10B → go (tblGet m.scratch 0 (k - 0x108))) ∧
     ((5 < k ∧ k < 0x100) ∨ k = 0x107 ∨ 0x10B < k → go 0)) ∧
  ((∀ (s : State) (u : MUnit) (f : FmtE) (k : Nat), s.canRun u f.g ⟨[f.a], []⟩ → s.csrReach u f k →
     let x := s.sOf u f.a
     let old := ((s.wake u).csrRead u k).1
     exec (.csrw u f) s = .next (s.afterMki u (fun m => m.csrWrite k x)) ∧
     exec (.csrs u f) s = .next (s.afterMki u (fun m => m.csrWrite k (old ||| x))) ∧
     exec (.csrc u f) s = .next (s.afterMki u (fun m => m.csrWrite k (old &&& ~~~x)))) ∧
   (∀ (m : Mki) (v : Word),
     m.csrWrite 0x100 v = { m with ie := v.getLsbD 0 } ∧
     m.csrWrite 0x102 v = { m with epc := 8 * (v.toNat / 8 % 2 ^ 38) } ∧
     m.csrWrite 0x104 v = { m with evec := 64 * (v.toNat / 64 % 2 ^ 35) } ∧
     m.csrWrite 0x106 v = { m with ien := v.setWidth 32 } ∧
     (∀ i < 4, m.csrWrite (0x108 + i) v = { m with scratch := tblSet m.scratch i v }) ∧
     (∀ k, k ≠ 0x100 → k ≠ 0x102 → k ≠ 0x104 → k ≠ 0x106 → ¬(0x108 ≤ k ∧ k ≤ 0x10B) → m.csrWrite k v = m)) ∧
   (∀ (s : State) (u : MUnit) (f : FmtE), s.canRun u f.g {} → f.sc = 0 → f.rsv = false → f.a = 0 → f.imm.toNat < 64 →
     s.mathDrained u = true →
     exec (.fclr u f) s = .next (s.afterMki u (fun m => { m with astat := m.astat &&& ~~~(f.imm.setWidth 6) }))))

/-- Drawn from R154, R192: BREAK on a control core that is not in a trap saves PC, cause and code, masks interrupts and fetches from
EVEC; ERET undoes it; an interrupt present at an instruction boundary with IE set is accepted with ECAUSE 0x80. -/
def Obligations.TrapEntryAndReturn : Prop :=
  (∀ (s : State) (e c : Fin 4) (f : FmtE), s.canRun (.core e c) f.g {} → f.sc = 0 → f.rsv = false → f.a = 0 →
    (s.mki (.core e c)).inTrap = false →
    ∃ t, exec (.mkiBreak (.core e c) f) s = .next t ∧
      t.mki (.core e c) = { s.mki (.core e c) with
        epc := (s.mki (.core e c)).pc, ecause := 0x0D, eaddr := f.imm.toNat, inTrap := true, ie := false, pc := (s.mki (.core e c)).evec } ∧
      t = { s with cores := t.cores, kss := t.kss }) ∧
  (∀ (s : State) (e c : Fin 4) (f : FmtE), s.canRun (.core e c) f.g {} → f.sc = 0 → f.rsv = false → f.a = 0 → f.imm = 0 →
    exec (.eret (.core e c) f) s = .next ((s.wake (.core e c)).modMki (.core e c) (fun m => { m with pc := m.epc, ie := true, inTrap := false }))) ∧
  (∀ (s : State) (e c : Fin 4), (s.core (coreIx e c)).out = true → (s.core (coreIx e c)).stopped = false →
    (s.core (coreIx e c)).wait = .none → (s.mki (.core e c)).ie = true → s.ipend (coreIx e c) &&& (s.mki (.core e c)).ien ≠ 0 →
    ∃ t a, exec (.interruptAccept e c) s = .next t ∧
      t.mki (.core e c) = { s.mki (.core e c) with
        epc := (s.mki (.core e c)).pc / 8 * 8 % 2 ^ 41, ecause := 0x80, eaddr := a, inTrap := true, ie := false, pc := (s.mki (.core e c)).evec } ∧
      (t.core (coreIx e c)).wfi = false ∧ t = { s with cores := t.cores, kss := t.kss, free := s.free + 1 })

/-- R155: a trap of a control core that is in a trap already stops the core, the saved registers keep the first trap's values, and the
control-core fault (source 40 of Table 22.3) is raised for it. -/
def Obligations.DoubleTrapStopsCore : Prop :=
  (∀ (s : State) (i epc cause addr : Nat), (s.core i).mki.inTrap = true →
    let t := s.coreTrap i epc cause addr
    t = (s.modCore i (fun k => { k with stopped := true, wait := .none })).raise { src := 40, unit := unitCore (i / 4) (i % 4) } ∧
    (t.core i).stopped = true ∧ (t.core i).mki = (s.core i).mki) ∧
  ∀ (s : State) (e c : Fin 4) (f : FmtE), s.canRun (.core e c) f.g {} → f.sc = 0 → f.rsv = false → f.a = 0 →
    (s.mki (.core e c)).inTrap = true →
    ∃ t, exec (.mkiBreak (.core e c) f) s = .next t ∧
      t = ((s.wake (.core e c)).modCore (coreIx e c) (fun k => { k with stopped := true, wait := .none })).raise
        { src := 40, unit := unitCore e.val c.val } ∧
      (t.core (coreIx e c)).stopped = true ∧ (t.mki (.core e c)).epc = (s.mki (.core e c)).epc ∧
      (t.mki (.core e c)).ecause = (s.mki (.core e c)).ecause ∧ (t.mki (.core e c)).eaddr = (s.mki (.core e c)).eaddr

/-- Drawn from R151, R192, R193, R194, R212: BREAK on a crucible meets the trap BREAK with its code, which discards what has not started;
END and MORTAR stop dispatch; WFI moves PC to the next instruction and stops fetching, but where a line is set in both IPEND and IEN
already. ERET and WFI on a crucible, and END on a control core, whose profile lacks them, trap with PROFILE. R73, R146, R189, R333: a
fetch whose line stands in the instruction cache changes nothing where its word is an instruction, and traps with ILLEGAL where it is
none; a line of the crucible's cache enters the instruction cache; otherwise the request goes to the home in service and the unit waits.
An address that meets a fetch trap takes it; a unit that is not at an instruction boundary fetches nothing. -/
def Obligations.ControlAndFetch : Prop :=
  ((∀ (s : State) (n : Fin 72) (f : FmtE), s.canRun (.cru n) f.g {} → f.sc = 0 → f.rsv = false → f.a = 0 →
     exec (.mkiBreak (.cru n) f) s = .next (s.cruTrap n.val .seq 0x0D (s.cru n.val).mki.pc f.imm.toNat) ∧
     ((s.cru n.val).xq = [] → exec (.mkiBreak (.cru n) f) s = .next (s.modCru n.val (fun c =>
       { c with trap := some ⟨0, 0x0D, (s.cru n.val).mki.pc, f.imm.toNat⟩, mq0 := [], mq1 := [], vq := [], xq := [], seqw := .none })))) ∧
   (∀ (s : State) (n : Fin 72) (f : FmtE), s.canRun (.cru n) f.g {} → f.sc = 0 → f.rsv = false → f.a = 0 → f.imm.toNat < 2 ^ 16 →
     exec (.mkiEnd (.cru n) f) s = .next (s.modCru n.val (fun c => { c with seqw := .ending f.imm.toNat }))) ∧
   (∀ (s : State) (f : FmtE), f.sc = 0 → f.rsv = false → f.a = 0 → f.imm = 0 →
     (∀ n : Fin 72, s.canRun (.cru n) f.g {} → exec (.mortar (.cru n) f) s = .next (s.modCru n.val (fun c => { c with seqw := .mortar }))) ∧
     (∀ n : Fin 72, s.canDispatch (.cru n) f.g {} → ∀ i ∈ [Instr.eret (.cru n) f, .wfi (.cru n) f],
       exec i s = .next (s.cruTrap n.val .seq tProfile (s.cru n.val).mki.pc 0)) ∧
     (∀ e c : Fin 4, s.canDispatch (.core e c) f.g {} →
       exec (.mkiEnd (.core e c) f) s = .next ((s.wake (.core e c)).coreTrap (coreIx e c) (s.mki (.core e c)).pc tProfile 0)) ∧
     (∀ e c : Fin 4, s.canRun (.core e c) f.g {} →
       exec (.mortar (.core e c) f) s = .next (s.modCore (coreIx e c) (fun k => { k with wfi := false, wait := .mortar })) ∧
       exec (.wfi (.core e c) f) s = .next (s.modCore (coreIx e c) (fun k =>
         { k with wfi := s.ipend (coreIx e c) &&& k.mki.ien == 0, mki := { k.mki with pc := k.mki.pc + 8 } }))))) ∧
  ((∀ (s : State) (u : MUnit), (s.ready u = false → exec (.fetch u) s = .next s) ∧
     (∀ c a, s.ready u = true → s.fetchTrap u = some (c, a) → exec (.fetch u) s = .next (s.unitTrap u .seq c (s.mki u).pc a))) ∧
   (∀ (s : State) (n : Fin 72) (l : LineData × BitVec 8), s.ready (.cru n) = true → s.fetchTrap (.cru n) = none →
     tblFind (s.cru n.val).ic ((s.mki (.cru n)).pc / 64) = some l →
     (mkiDefined (lineInstr l.1 (s.mki (.cru n)).pc) = true → exec (.fetch (.cru n)) s = .next s) ∧
     (mkiDefined (lineInstr l.1 (s.mki (.cru n)).pc) = false →
       exec (.fetch (.cru n)) s = .next (s.cruTrap n.val .seq 0x03 (s.mki (.cru n)).pc 0))) ∧
   (∀ (s : State) (n : Fin 72) (x : CLine), s.ready (.cru n) = true → s.fetchTrap (.cru n) = none →
     let line := (s.mki (.cru n)).pc / 64
     tblFind (s.cru n.val).ic line = none → (s.cru n.val).ic.length < 512 → tblFind (s.cru n.val).cache line = some x →
     (s.cru n.val).cst ≠ .invalidating → mkiDefined (lineInstr x.data (s.mki (.cru n)).pc) = true →
     exec (.fetch (.cru n)) s = .next ((s.bump64 (aCr n.val 0x4020) 1).modCru n.val (fun c =>
       { c with ic := tblSet c.ic line (x.data, x.poison) }))) ∧
   (∀ (s : State) (n : Fin 72) (k : Nat), s.ready (.cru n) = true → s.fetchTrap (.cru n) = none →
     let line := (s.mki (.cru n)).pc / 64
     let c := s.cru n.val
     tblFind c.ic line = none → tblFind c.cache line = none → tblFind c.wb line = none → tblFind c.miss line = none →
     c.miss.length < 384 → c.cst ≠ .invalidating →
     s.homeUp line = some k → s.hasCredit n.val k = true →
     ∃ t, exec (.fetch (.cru n)) s = .next t ∧ (t.cru n.val).fetchPend = true ∧
       t.net = s.net ++ [{ kind := if c.installs then .rds else .rdc, aid := n.val, home := k, line := line, tag := s.tags }]) ∧
   (∀ (s : State) (e c : Fin 4) (k : Nat), s.ready (.core e c) = true → s.fetchTrap (.core e c) = none →
     let pc := (s.mki (.core e c)).pc
     let x := coreIx e c
     let w : Word := BitVec.ofNat 64 (s.codeNat e.val (pc - s.codeWindow) 8)
     (s.inCodeWindow pc = true → mkiDefined w = true → exec (.fetch (.core e c)) s = .next s) ∧
     (s.inCodeWindow pc = true → mkiDefined w = false → exec (.fetch (.core e c)) s = .next (s.coreTrap x pc 0x03 0)) ∧
     (s.inCodeWindow pc = false → s.homeUp (pc / 64) = some k → s.posted (aidCore x) (pc / 64) = false → s.hasCredit (aidCore x) k = true →
       ∃ t, exec (.fetch (.core e c)) s = .next t ∧ (t.core x).wait = .fetch (pc / 64) s.tags ∧
         t.net = s.net ++ [{ kind := .rdc, aid := aidCore x, home := k, line := pc / 64, tag := s.tags }])))

/-- Drawn from R75, R207 to R210: a signal on the sequencer adds n to its counter at dispatch, or traps with SYNC_OVERFLOW where the
counter cannot hold it, and one on a queue enters the queue behind its entries; a wait goes on when the counter is there, or stalls;
scset sets the counter, or waits for the tokens before it; scread reads it. n is (s[A][31:0] + IMM) mod 2^32. A full queue stalls the
instruction, an FN above the queues it allows traps with ILLEGAL, and a control core has none of them. R171, R208, R209: the token at the
head of a queue adds n to its counter, or traps with SYNC_OVERFLOW and leaves the counter; the wait at the head leaves once the counter
is there, and the wait of dispatch lets the next instruction come. A token of XQ also waits until the pool accesses before it have been
accepted. Stated for queues that hold nothing else; without a token or wait at the head, or with the counter short, nothing changes. -/
def Obligations.SyncCountersAndTokens : Prop :=
  ((∀ (s : State) (n : Fin 72) (f : FmtE) (fn : BitVec 6), s.canDispatch (.cru n) f.g ⟨[f.a], []⟩ → f.rsv = false →
     (0 < fn.toNat → ∀ i ∈ [Instr.scset (.cru n) f fn, .scread (.cru n) f fn],
       exec i s = .next (s.cruTrap n.val .seq tIllegal (s.cru n.val).mki.pc 0)) ∧
     (4 < fn.toNat → ∀ i ∈ [Instr.scsig (.cru n) f fn, .scwait (.cru n) f fn],
       exec i s = .next (s.cruTrap n.val .seq tIllegal (s.cru n.val).mki.pc 0))) ∧
   (∀ (s : State) (e c : Fin 4) (f : FmtE), s.canDispatch (.core e c) f.g ⟨[f.a], []⟩ → f.rsv = false → f.imm = 0 →
     let u := MUnit.core e c
     ∀ i ∈ [Instr.scsig u f 0, .scwait u f 0, .scset u f 0, .scread u f 0],
       exec i s = .next ((s.wake u).coreTrap (coreIx e c) (s.mki u).pc tProfile 0)) ∧
   ∀ (s : State) (n : Fin 72) (f : FmtE), s.canRun (.cru n) f.g ⟨[f.a], []⟩ → f.rsv = false →
     let c := s.cru n.val
     let k := f.sc.toNat
     let v := ((s.sOf (.cru n) f.a).toNat % 2 ^ 32 + f.imm.toNat) % 2 ^ 32
     let then1 (g : Cru → Cru) : State := s.modCru n.val (fun c => { g c with mki := { (g c).mki with pc := c.mki.pc + 8 } })
     (tblGet c.sc 0 k + v < 2 ^ 32 → exec (.scsig (.cru n) f 0) s = .next (then1 (fun c => { c with sc := tblSet c.sc k (tblGet c.sc 0 k + v) }))) ∧
     (2 ^ 32 ≤ tblGet c.sc 0 k + v → exec (.scsig (.cru n) f 0) s = .next (s.cruTrap n.val .seq tSyncOverflow c.mki.pc k)) ∧
     (∀ q ∈ [(1, c.mq0), (2, c.mq1), (3, c.vq), (4, c.xq)], 16 ≤ q.2.length →
       exec (.scsig (.cru n) f q.1) s = .next s ∧ exec (.scwait (.cru n) f q.1) s = .next s) ∧
     (c.signals k = true → exec (.scset (.cru n) f 0) s = .next s) ∧
     let thenQ (g : Cru → Cru) : State := then1 (fun c => { g c with nseq := c.nseq + 1 })
     (c.mq0.length < 16 → exec (.scsig (.cru n) f 1) s = .next (thenQ (fun c => { c with mq0 := c.mq0 ++ [.sig k v c.mki.pc c.nseq] }))) ∧
     (c.mq1.length < 16 → exec (.scsig (.cru n) f 2) s = .next (thenQ (fun c => { c with mq1 := c.mq1 ++ [.sig k v c.mki.pc c.nseq] }))) ∧
     (c.vq.length < 16 → exec (.scsig (.cru n) f 3) s = .next (thenQ (fun c => { c with vq := c.vq ++ [.sig k v c.mki.pc c.nseq] }))) ∧
     (c.xq.length < 16 → exec (.scsig (.cru n) f 4) s = .next (thenQ (fun c => { c with xq := c.xq ++ [.sig k v c.mki.pc c.nseq] }))) ∧
     (v ≤ tblGet c.sc 0 k → exec (.scwait (.cru n) f 0) s = .next (then1 id)) ∧
     (tblGet c.sc 0 k < v → exec (.scwait (.cru n) f 0) s = .next (s.modCru n.val (fun c => { c with seqw := .scwait k v }))) ∧
     (c.mq0.length < 16 → exec (.scwait (.cru n) f 1) s = .next (thenQ (fun c => { c with mq0 := c.mq0 ++ [.wait k v] }))) ∧
     (c.mq1.length < 16 → exec (.scwait (.cru n) f 2) s = .next (thenQ (fun c => { c with mq1 := c.mq1 ++ [.wait k v] }))) ∧
     (c.vq.length < 16 → exec (.scwait (.cru n) f 3) s = .next (thenQ (fun c => { c with vq := c.vq ++ [.wait k v] }))) ∧
     (c.xq.length < 16 → exec (.scwait (.cru n) f 4) s = .next (thenQ (fun c => { c with xq := c.xq ++ [.wait k v] }))) ∧
     (c.signals k = false → exec (.scset (.cru n) f 0) s = .next (then1 (fun c => { c with sc := tblSet c.sc k v }))) ∧
     (f.imm = 0 → exec (.scread (.cru n) f 0) s = .next (s.afterS (.cru n) f.a (BitVec.ofNat 64 (tblGet c.sc 0 k))))) ∧
  (∀ (s : State) (n : Fin 72) (k v pc q : Nat), (s.cru n.val).st = .running → (s.cru n.val).trap = none →
     let c := s.cru n.val
     let up (c : Cru) : Cru := { c with sc := tblSet c.sc k (tblGet c.sc 0 k + v) }
     let there := v ≤ tblGet c.sc 0 k
     (tblGet c.sc 0 k + v < 2 ^ 32 →
       (c.mq0 = [.sig k v pc q] → c.xq = [] → exec (.signalTokenFire n .mq0) s = .next (s.modCru n.val (fun c => { up c with mq0 := [] }))) ∧
       (c.mq1 = [.sig k v pc q] → c.xq = [] → exec (.signalTokenFire n .mq1) s = .next (s.modCru n.val (fun c => { up c with mq1 := [] }))) ∧
       (c.vq = [.sig k v pc q] → c.xq = [] → exec (.signalTokenFire n .vq) s = .next (s.modCru n.val (fun c => { up c with vq := [] }))) ∧
       (c.xq = [.sig k v pc q] → s.xqAccepted n.val = true →
         exec (.signalTokenFire n .xq) s = .next (s.modCru n.val (fun c => { up c with xq := [] }))) ∧
       (c.xq = [.sig k v pc q] → s.xqAccepted n.val = false → exec (.signalTokenFire n .xq) s = .next s)) ∧
     (c.vq = [.sig k v pc q] → 2 ^ 32 ≤ tblGet c.sc 0 k + v →
       ∃ t, exec (.signalTokenFire n .vq) s = .next t ∧ (t.cru n.val).trap = some ⟨3, 0x0C, pc, k⟩ ∧ (t.cru n.val).sc = c.sc) ∧
     (∀ qq, c.getQ qq = [] → exec (.signalTokenFire n qq) s = .next s) ∧
     (there →
       (c.mq0 = [.wait k v] → c.xq = [] → exec (.scwaitRelease n .mq0) s = .next (s.modCru n.val (fun c => { c with mq0 := [] }))) ∧
       (c.mq1 = [.wait k v] → c.xq = [] → exec (.scwaitRelease n .mq1) s = .next (s.modCru n.val (fun c => { c with mq1 := [] }))) ∧
       (c.vq = [.wait k v] → c.xq = [] → exec (.scwaitRelease n .vq) s = .next (s.modCru n.val (fun c => { c with vq := [] }))) ∧
       (c.xq = [.wait k v] → exec (.scwaitRelease n .xq) s = .next (s.modCru n.val (fun c => { c with xq := [] }))) ∧
       (c.seqw = .scwait k v →
         exec (.scwaitRelease n .seq) s = .next (s.modCru n.val (fun c => { c with seqw := .none, mki := { c.mki with pc := c.mki.pc + 8 } })))) ∧
     (¬there → (c.seqw = .scwait k v → exec (.scwaitRelease n .seq) s = .next s) ∧
       ∀ qq, c.getQ qq = [.wait k v] → exec (.scwaitRelease n qq) s = .next s))

/-- Drawn from R212, R367: a barrier retires when every queue is empty, no access of the unit is outstanding and no range command it gave
is in progress (R364), and MSTAT.INCOMPLETE then says whether a store before it was declared dead. END then enters IDLE (R193), and where
the program was a charge, keeps its exit code and INCOMPLETE while the cache is flushed (R228). Until the barrier is done nothing
changes. -/
def Obligations.BarriersRetire : Prop :=
  (∀ (s : State) (n : Fin 72), (s.cru n.val).seqw = .mortar → s.barrierDone n.val = true →
    exec (.mortarRetire (.cru n)) s = .next (s.modCru n.val (fun c =>
      { c with seqw := .none, mki := { c.mki with pc := c.mki.pc + 8, incomplete := c.mki.deadStore, deadStore := false } }))) ∧
  (∀ (s : State) (e c : Fin 4), (s.core (coreIx e c)).wait = .mortar → s.allDone (aidCore (coreIx e c)) = true →
    (∀ x ∈ s.crus, x.2.commanded false (aidCore (coreIx e c)) = false) →
    exec (.mortarRetire (.core e c)) s = .next (s.modCore (coreIx e c) (fun k =>
      { k with wait := .none, mki := { k.mki with pc := k.mki.pc + 8, incomplete := k.mki.deadStore, deadStore := false } }))) ∧
  (∀ (s : State) (n : Fin 72), s.barrierDone n.val = false ∨ (s.cru n.val).seqw = .none →
    exec (.mortarRetire (.cru n)) s = .next s ∧ exec (.endRetire n) s = .next s) ∧
  (∀ (s : State) (e c : Fin 4), (s.core (coreIx e c)).wait ≠ .mortar ∨ s.coreBarrier (coreIx e c) = false →
    exec (.mortarRetire (.core e c)) s = .next s) ∧
  (∀ (s : State) (n : Fin 72) (code p slot : Nat) (x : Charge), (s.cru n.val).seqw = .ending code → s.barrierDone n.val = true →
    (s.cru n.val).charge = some (p, slot) → s.charge p slot = some x →
    ∃ t, exec (.endRetire n) s = .next t ∧ (t.cru n.val).st = .idle ∧ (t.cru n.val).seqw = .none ∧
      t.charge p slot = some { x with run := .flushing code (s.mki (.cru n)).deadStore }) ∧
  (∀ (s : State) (n : Fin 72) (code : Nat), (s.cru n.val).seqw = .ending code → s.barrierDone n.val = true → (s.cru n.val).charge = none →
    ∃ t, exec (.endRetire n) s = .next t ∧ (t.cru n.val).st = .idle ∧ (t.cru n.val).seqw = .none ∧
      (t.mki (.cru n)).incomplete = (s.mki (.cru n)).deadStore ∧ (t.mki (.cru n)).s = (s.mki (.cru n)).s ∧ t.mould = s.mould)

/-! ## Vector instructions -/

/-- Drawn from R172: the FP32 operations of VQ act lane by lane under the guard, with the flags of the lanes that execute. R172, R127:
the integer operations of VQ, on elements of the width of TY. -/
def Obligations.VectorArithmetic : Prop :=
  (∀ (s : State) (n : Fin 72) (f : FmtA), s.vqReady n f.g {} → f.ty = 0 → f.sat = false → f.rsv = 0 →
     let g := s.maskOf n f.g
     let a := s.laneOf n f.a
     let b := s.laneOf n f.b
     let rm := rmOf f.rm
     let go (i : Instr) (op : Nat → Reg × Flags) : Prop := exec i s = .next (s.cruNext n (fun c => c.lanes g f.d.toNat op))
     (f.rm.toNat < 2 → f.c = 0 →
       go (.vaddF32 (.cru n) f) (fun k => addF32 rm (a k) (b k)) ∧ go (.vsubF32 (.cru n) f) (fun k => subF32 rm (a k) (b k)) ∧
       go (.vmulF32 (.cru n) f) (fun k => mulF32 rm (a k) (b k))) ∧
     (f.rm.toNat < 2 →
       go (.vfmaF32 (.cru n) f) (fun k => fmaF32 rm (a k) (b k) (s.laneOf n f.c k)) ∧
       go (.vfnmaF32 (.cru n) f) (fun k => fnmaF32 rm (a k) (b k) (s.laneOf n f.c k))) ∧
     (f.rm = 0 → f.c = 0 →
       go (.vminF32 (.cru n) f) (fun k => (minF32 (a k) (b k), {})) ∧ go (.vmaxF32 (.cru n) f) (fun k => (maxF32 (a k) (b k), {}))) ∧
     (f.rm = 0 → f.b = 0 → f.c = 0 →
       go (.vabsF32 (.cru n) f) (fun k => (absF32 (a k), {})) ∧ go (.vnegF32 (.cru n) f) (fun k => (negF32 (a k), {})))) ∧
  (∀ (s : State) (n : Fin 72) (f : FmtA), s.vqReady n f.g {} → (f.ty = 0x08 ∨ f.ty = 0x09 ∨ f.ty = 0x0A) → f.rm = 0 → f.sat = false →
     f.c = 0 → f.rsv = 0 →
     let w := if f.ty = 0x08 then 8 else if f.ty = 0x09 then 16 else 32
     let c := s.cru n.val
     let a := velem w (c.vreg f.a.toNat)
     let b := velem w (c.vreg f.b.toNat)
     let go (i : Instr) (op : Nat → Nat) : Prop :=
       exec i s = .next (s.cruNext n (fun c => c.setV f.d.toNat (byElems (s.maskOf n f.g) w (c.vreg f.d.toNat) op)))
     go (.vadd (.cru n) f) (fun k => (a k + b k) % 2 ^ w) ∧
     go (.vsub (.cru n) f) (fun k => (a k + (2 ^ w - b k)) % 2 ^ w) ∧
     go (.vmul (.cru n) f) (fun k => a k * b k % 2 ^ w) ∧
     (f.ty ≠ 0x0A →
       go (.vadds (.cru n) f) (fun k => satInt w (sext w (a k) + sext w (b k))) ∧
       go (.vsubs (.cru n) f) (fun k => satInt w (sext w (a k) - sext w (b k)))) ∧
     go (.vmin (.cru n) f) (fun k => if sext w (b k) < sext w (a k) then b k else a k) ∧
     go (.vmax (.cru n) f) (fun k => if sext w (a k) < sext w (b k) then b k else a k) ∧
     go (.vand (.cru n) f) (fun k => a k &&& b k) ∧
     go (.vor (.cru n) f) (fun k => a k ||| b k) ∧
     go (.vxor (.cru n) f) (fun k => a k ^^^ b k) ∧
     go (.vshl (.cru n) f) (fun k => a k * 2 ^ (b k % w) % 2 ^ w) ∧
     go (.vshr (.cru n) f) (fun k => a k / 2 ^ (b k % w)) ∧
     go (.vsra (.cru n) f) (fun k => wrap w (sext w (a k) / 2 ^ (b k % w))))

/-- Drawn from R147 on vector instructions: lane i executes when guard bit i is 1 and keeps its destination value otherwise; an 8-bit or
16-bit element takes the guard bit of the 32-bit lane that holds it. Shown on vadd.f32 and vadd. -/
def Obligations.GuardedLanesKeepTheirValue : Prop :=
  (∀ (s : State) (n : Fin 72) (f : FmtA) (k : Nat), s.vqReady n f.g {} → f.ty = 0 → f.sat = false → f.rsv = 0 → f.rm.toNat < 2 → f.c = 0 →
    k < 64 →
    ∃ t, exec (.vaddF32 (.cru n) f) s = .next t ∧
      t.laneOf n f.d k =
        (if (s.maskOf n f.g).getLsbD k then (addF32 (rmOf f.rm) (s.laneOf n f.a k) (s.laneOf n f.b k)).1 else s.laneOf n f.d k) ∧
      (∀ r, r ≠ f.d → t.laneOf n r k = s.laneOf n r k)) ∧
  (∀ (s : State) (n : Fin 72) (f : FmtA) (w k : Nat), s.vqReady n f.g {} → (f.ty = 0x08 ∧ w = 8 ∨ f.ty = 0x09 ∧ w = 16 ∨ f.ty = 0x0A ∧ w = 32) →
    f.rm = 0 → f.sat = false → f.c = 0 → f.rsv = 0 → k < 2048 / w →
    let el (x : State) (r : BitVec 6) : Nat := velem w ((x.cru n.val).vreg r.toNat) k
    ∃ t, exec (.vadd (.cru n) f) s = .next t ∧
      el t f.d = (if (s.maskOf n f.g).getLsbD (w * k / 32) then (el s f.a + el s f.b) % 2 ^ w else el s f.d) ∧
      (∀ r, r ≠ f.d → el t r = el s r))

/-- Drawn from R126, R172: vector compares write bit k of p[D] for each enabled lane k; with a NaN operand every comparison is false but
not-equal. -/
def Obligations.VectorCompares : Prop :=
  (∀ (s : State) (n : Fin 72) (f : FmtA), s.vqReady n f.g ⟨[], [f.d]⟩ → (f.ty = 0 ∨ f.ty = 0x0A) → f.rm = 0 → f.sat = false → f.c = 0 →
    f.rsv = 0 → f.d.toNat < 16 →
    let a := s.laneOf n f.a
    let b := s.laneOf n f.b
    let go (i : Instr) (op : Cmp) (r : Int → Int → Prop) [∀ x y, Decidable (r x y)] : Prop :=
      ∃ t, exec i s = .next t ∧ t = s.cruNext n (fun c => { c with mki := { c.mki with p := (t.cru n.val).mki.p } }) ∧
        (∀ q : BitVec 6, q ≠ f.d → t.pOf (.cru n) q = s.pOf (.cru n) q) ∧
        ∀ k < 64, (t.pOf (.cru n) f.d).getLsbD k =
          (if (s.maskOf n f.g).getLsbD k then (if f.ty = 0 then cmpF32 op (a k) (b k) else decide (r (a k).toInt (b k).toInt))
           else (s.pOf (.cru n) f.d).getLsbD k)
    go (.vceq (.cru n) f) .eq (· = ·) ∧ go (.vcne (.cru n) f) .ne (· ≠ ·) ∧ go (.vclt (.cru n) f) .lt (· < ·) ∧
    go (.vcle (.cru n) f) .le (· ≤ ·) ∧ go (.vcgt (.cru n) f) .gt (· > ·) ∧ go (.vcge (.cru n) f) .ge (· ≥ ·)) ∧
  (∀ (op : Cmp) (x y : Reg), (f32 x).isNan = true ∨ (f32 y).isNan = true → cmpF32 op x y = (op == .ne))

/-- Drawn from R172, R173, R117: selection, broadcast, insertion, extraction, the two reductions and the seeding of the generators. -/
def Obligations.VectorMovesAndReductions : Prop :=
  ∀ (s : State) (n : Fin 72) (f : FmtA), f.rm = 0 → f.sat = false → f.rsv = 0 →
    let g := s.maskOf n f.g
    let a := s.laneOf n f.a
    (s.vqReady n f.g ⟨[], [f.c]⟩ → f.ty = 0 → f.c.toNat < 16 →
      exec (.vsel (.cru n) f) s = .next (s.cruNext n (fun c =>
        c.lanes g f.d.toNat (fun k => (if (s.pOf (.cru n) f.c).getLsbD k then a k else s.laneOf n f.b k, {}))))) ∧
    (s.vqReady n f.g ⟨[f.a], []⟩ → (f.ty = 0x08 ∨ f.ty = 0x09 ∨ f.ty = 0x0A) → f.b = 0 → f.c = 0 →
      let w := if f.ty = 0x08 then 8 else if f.ty = 0x09 then 16 else 32
      exec (.vbcast (.cru n) f) s = .next (s.cruNext n (fun c =>
        c.setV f.d.toNat (byElems g w (c.vreg f.d.toNat) (fun _ => (s.sOf (.cru n) f.a).toNat % 2 ^ w))))) ∧
    (s.vqReady n f.g ⟨[f.a, f.b], []⟩ → f.ty = 0x0A → f.c = 0 → g.getLsbD (bitsOf (s.sOf (.cru n) f.b) 0 6) = true →
      exec (.vins (.cru n) f) s = .next (s.cruNext n (fun c => c.setV f.d.toNat
        (vput (c.vreg f.d.toNat) (32 * bitsOf (s.sOf (.cru n) f.b) 0 6) 32 (s.sOf (.cru n) f.a).toNat)))) ∧
    (s.vqReady n f.g ⟨[f.a, f.b], []⟩ → f.ty = 0x0A → f.c = 0 → g.getLsbD (bitsOf (s.sOf (.cru n) f.b) 0 6) = false →
      exec (.vins (.cru n) f) s = .next (s.cruNext n id)) ∧
    (s.vqReady n f.g ⟨[f.b, f.d], []⟩ → f.ty = 0x0A → f.c = 0 → g.getLsbD (bitsOf (s.sOf (.cru n) f.b) 0 6) = true →
      exec (.vext (.cru n) f) s = .next (s.cruNext n (fun c =>
        { c with mki := c.mki.setS f.d.toNat ((a (bitsOf (s.sOf (.cru n) f.b) 0 6)).setWidth 64) }))) ∧
    (s.vqReady n f.g ⟨[f.b, f.d], []⟩ → f.ty = 0x0A → f.c = 0 → g.getLsbD (bitsOf (s.sOf (.cru n) f.b) 0 6) = false →
      exec (.vext (.cru n) f) s = .next (s.cruNext n id)) ∧
    (s.vqReady n f.g ⟨[f.d], []⟩ → f.ty = 0 → f.b = 0 → f.c = 0 →
      let red (op : Reg → Reg → Reg × Flags) (ident : Reg) : Reg × Flags :=
        redTree op 6 ((List.range 64).map (fun k => if g.getLsbD k then a k else ident))
      let x := red (addF32 .rne) 0x80000000
      let y := red (fun p q => (maxF32 p q, {})) 0x7FC00000
      exec (.vrsumF32 (.cru n) f) s = .next (s.cruNext n (fun c =>
        { c.flag x.2 with mki := (c.flag x.2).mki.setS f.d.toNat (x.1.setWidth 64) })) ∧
      exec (.vrmaxF32 (.cru n) f) s = .next (s.cruNext n (fun c =>
        { c.flag y.2 with mki := (c.flag y.2).mki.setS f.d.toNat (y.1.setWidth 64) }))) ∧
    (s.vqReady n f.g ⟨[f.a], []⟩ → f.ty = 0 → f.b = 0 → f.c = 0 → f.d = 0 →
      ∃ t, exec (.vseed (.cru n) f) s = .next t ∧ t = s.cruNext n (fun c => { c with gens := (t.cru n.val).gens }) ∧
        ∀ k < 64, (t.cru n.val).gen k = (if g.getLsbD k then genSeed (s.sOf (.cru n) f.a) k else (s.cru n.val).gen k))

/-- Drawn from R174 to R178: conversions. FP32 to and from INT32 lane by lane; a narrow source widened from the segment that s[C]
selects; a narrow target written element by element into that segment; MX blocks quantized and dequantized. R182: the special functions
act lane by lane; a NaN operand gives the canonical NaN. -/
def Obligations.VectorConversionsAndFunctions : Prop :=
  (∀ (s : State) (n : Fin 72) (f : FmtA), s.vqReady n f.g ⟨[f.c], []⟩ → f.rsv = 0 →
     let g := s.maskOf n f.g
     let a := s.laneOf n f.a
     let va := (s.cru n.val).vreg f.a.toNat
     let seg (w : Nat) : Nat := (s.sOf (.cru n) f.c).toNat % (32 / w)
     (f.b = 0 → f.c = 0 → f.rm.toNat < 2 → f.sat = false → f.ty = 0 →
       exec (.vcvt (.cru n) f 0x0A) s = .next (s.cruNext n (fun c => c.lanes g f.d.toNat (fun k => round32 (rmOf f.rm) (intValue (a k).toInt))))) ∧
     (f.b = 0 → f.c = 0 → f.rm.toNat < 2 → f.sat = false → f.ty = 0x0A →
       exec (.vcvt (.cru n) f 0) s = .next (s.cruNext n (fun c => c.lanes g f.d.toNat (fun k =>
         (BitVec.ofNat 32 (narrowTo 0x0A (rmOf f.rm) false (f32 (a k))).1, (narrowTo 0x0A (rmOf f.rm) false (f32 (a k))).2))))) ∧
     (∀ src : BitVec 10, 1 ≤ src.toNat → src.toNat ≤ 8 → f.b = 0 → f.rm = 0 → f.sat = false → f.ty = 0 →
       let w := tyWidth src.toNat
       exec (.vcvt (.cru n) f src) s = .next (s.cruNext n (fun c => c.lanes g f.d.toNat (fun k =>
         round32 .rne (elemValue src.toNat (vbits va (64 * w * seg w + w * k) w)))))) ∧
     (1 ≤ f.ty.toNat → f.ty.toNat ≤ 8 → f.b = 0 → f.rm ≠ 3 →
       exec (.vcvt (.cru n) f 0) s = .next (s.cruNext n (fun c => c.cvtNarrow f g (seg (tyWidth f.ty.toNat)) va))) ∧
     (0x13 ≤ f.ty.toNat → f.ty.toNat ≤ 0x17 → f.g.pe = false → f.sat = true → f.rm ≠ 3 →
       let w := tyWidth f.ty.toNat
       let d := f.d.toNat
       ∃ t, exec (.vqmx (.cru n) f) s = .next t ∧
         t = s.cruNext n (fun c => (List.range 2).foldl (fun c b =>
           let x := c.qmxBlock f.ty.toNat f.rm va b
           let c1 := x.2.2.setV d (vput (x.2.2.vreg d) (64 * w * seg w + 32 * w * b) (32 * w) (ofElems w x.2.1).toNat)
           c1.setV f.b.toNat (vput (c1.vreg f.b.toNat) (8 * (2 * seg w + b)) 8 x.1)) c) ∧
         (f.rm.toNat < 2 → f.b ≠ f.d → ∀ b < 2,
           let e := mxExp f.ty.toNat ((List.range 32).map (fun k => f32 (a (32 * b + k))))
           velem 8 ((t.cru n.val).vreg f.b.toNat) (2 * seg w + b) = (match e with | none => 0xFF | some e => (e + 127).toNat % 256) ∧
           ∀ k < 32, vbits ((t.cru n.val).vreg d) (64 * w * seg w + 32 * w * b + w * k) w =
             (match e with | none => 0 | some e => (narrowTo f.ty.toNat (rmOf f.rm) true ((f32 (a (32 * b + k))).scale (-e))).1))) ∧
     (0x13 ≤ f.ty.toNat → f.ty.toNat ≤ 0x17 → f.g.pe = false → f.sat = false → f.rm.toNat < 2 →
       let w := tyWidth f.ty.toNat
       let sc := (s.cru n.val).vreg f.b.toNat
       exec (.vdqmx (.cru n) f) s = .next (s.cruNext n (fun c => c.lanes g f.d.toNat (fun k =>
         mxValue f.ty.toNat (velem 8 sc (2 * seg w + k / 32)) (vbits va (64 * w * seg w + w * k) w) (rmOf f.rm)))))) ∧
  ((∀ (s : State) (n : Fin 72) (f : FmtA), s.vqReady n f.g {} → f.ty = 0 → f.rm = 0 → f.sat = false → f.b = 0 → f.c = 0 → f.rsv = 0 →
     let go (i : Instr) (fn : Sfu) : Prop :=
       exec i s = .next (s.cruNext n (fun c => c.lanes (s.maskOf n f.g) f.d.toNat (fun k => fn.eval (s.laneOf n f.a k))))
     go (.vrcpF32 (.cru n) f) .rcp ∧ go (.vrsqrtF32 (.cru n) f) .rsqrt ∧ go (.vsqrtF32 (.cru n) f) .sqrt ∧ go (.vexp2F32 (.cru n) f) .exp2 ∧
     go (.vexpF32 (.cru n) f) .exp ∧ go (.vlog2F32 (.cru n) f) .log2 ∧ go (.vlnF32 (.cru n) f) .ln ∧ go (.vsinF32 (.cru n) f) .sin ∧
     go (.vcosF32 (.cru n) f) .cos ∧ go (.vtanhF32 (.cru n) f) .tanh ∧ go (.vsigmoidF32 (.cru n) f) .sigmoid) ∧
   (∀ (fn : Sfu) (x : Reg), (f32 x).isNan = true → (fn.eval x).1 = 0x7FC00000))

/-- Drawn from R139, R140, R148, R180, R181: vector mould accesses. With some lane enabled, one beyond the mould, one not aligned to 64
bytes and a load that meets a poisoned word trap, in this order. Otherwise a load writes its enabled lanes, and vst changes exactly the
bytes of the enabled lanes, and a word written whole loses its mark. -/
def Obligations.VectorMouldAccess : Prop :=
  ∀ (s : State) (n : Fin 72) (f : FmtC), s.vqReady n f.g ⟨[f.base, f.idx], []⟩ → f.rsv = 0 →
    let g := s.maskOf n f.g
    let a := effAddr (s.sOf (.cru n) f.base) (s.sOf (.cru n) f.idx) f.sh f.off
    let ok (len : Nat) (reads : Bool) : Prop :=
      g = 0 ∨ (a + len ≤ 0x600000 ∧ a % 64 = 0 ∧ (reads = true → s.mpoRows n.val a 0 1 len = none))
    let traps (i : Instr) (len : Nat) : Prop :=
      (g ≠ 0 → 0x600000 < a + len → exec i s = .next (s.trapNext n .vq tRange (a % 2 ^ 41))) ∧
      (g ≠ 0 → a + len ≤ 0x600000 → a % 64 ≠ 0 → exec i s = .next (s.trapNext n .vq tMisaligned (a % 2 ^ 41)))
    let poison (i : Instr) (len : Nat) : Prop :=
      ∀ x, g ≠ 0 → a + len ≤ 0x600000 → a % 64 = 0 → s.mpoRows n.val a 0 1 len = some (tMouldPoison, x) →
        exec i s = .next (s.trapNext n .vq tMouldPoison x)
    traps (.vld (.cru n) f) 256 ∧ poison (.vld (.cru n) f) 256 ∧ traps (.vpermB (.cru n) f) 256 ∧ poison (.vpermB (.cru n) f) 256 ∧
    traps (.vperm (.cru n) f) 64 ∧ poison (.vperm (.cru n) f) 64 ∧ traps (.vst (.cru n) f) 256 ∧
    (ok 256 true →
      exec (.vld (.cru n) f) s = .next (s.cruNext n (fun c =>
        c.lanes g f.d.toNat (fun k => (BitVec.ofNat 32 (s.mouldNat n.val (a + 4 * k) 4), {})))) ∧
      exec (.vpermB (.cru n) f) s = .next (s.cruNext n (fun c =>
        c.setV f.d.toNat (byElems g 8 (c.vreg f.d.toNat) (fun k => velem 8 (c.vreg f.d.toNat) (s.mouldNat n.val (a + k) 1)))))) ∧
    (ok 64 true →
      exec (.vperm (.cru n) f) s = .next (s.cruNext n (fun c =>
        c.lanes g f.d.toNat (fun k => (s.laneOf n f.d (s.mouldNat n.val (a + k) 1 % 64), {}))))) ∧
    (ok 256 false → Memory.wf s.mould = true →
      ∃ t, exec (.vst (.cru n) f) s = .next t ∧ t = { s.cruNext n id with mould := t.mould, mouldPoison := t.mouldPoison } ∧
        (∀ k < 256, g.getLsbD (k / 4) = true →
          memGet t.mould (n.val * 2 ^ 23 + a + k) = BitVec.ofNat 8 (velem 8 ((s.cru n.val).vreg f.d.toNat) k)) ∧
        (∀ x, (∀ k < 256, g.getLsbD (k / 4) = true → x ≠ n.val * 2 ^ 23 + a + k) → memGet t.mould x = memGet s.mould x) ∧
        (∀ x, x ∈ t.mouldPoison ↔ x ∈ s.mouldPoison ∧
          ¬∃ k < 32, g.getLsbD (2 * k) = true ∧ g.getLsbD (2 * k + 1) = true ∧ x = n.val * 2 ^ 20 + a / 8 + k))

/-! ## Tile instructions -/

/-- Drawn from R162, R163: clearing and transposing a tile, and copying one of its rows into the v register that s[SB][5:0] names. No
flag changes. R161, R162, R164: rows loaded from the mould, which set no flag, and scaling by columns or by rows, which sets NV and OF
only. An operand beyond the mould, one not aligned to 64 bytes and one with a poisoned word trap, in this order, and change no tile. -/
def Obligations.TileRegisterOps : Prop :=
  (∀ (s : State) (n : Fin 72) (f : FmtD), f.tya = 0 → f.tyb = 0 → f.sx = 0 → f.rm = 0 → f.sat = false → f.z = false → f.rsv = 0 →
     (s.mqReady n f {} → f.sa = 0 → f.sb = 0 →
       (∃ t, exec (.tclr (.cru n) f) s = .next t ∧ s.onlyTile t n f (s.flagsOf n) (s.weights n) ∧ ∀ i < 64, ∀ j < 64, t.tileAt n f i j = 0) ∧
       (∃ t, exec (.ttr (.cru n) f) s = .next t ∧ s.onlyTile t n f (s.flagsOf n) (s.weights n) ∧
         ∀ i < 64, ∀ j < 64, t.tileAt n f i j = s.tileAt n f j i)) ∧
     (s.mqReady n f ⟨[f.sa, f.sb], []⟩ →
       exec (.trow (.cru n) f) s = .next (s.cruNext n (fun c =>
         c.setV (bitsOf (s.sOf (.cru n) f.sb) 0 6) (c.trow (b2n f.mu) f.t.toNat (bitsOf (s.sOf (.cru n) f.sa) 0 6)))))) ∧
  (∀ (s : State) (n : Fin 72) (f : FmtD), f.tyb = 0 → f.sb = 0 → f.z = false → f.rsv = 0 →
     let a := (s.sOf (.cru n) f.sa).toNat
     let p := bitsOf (s.sOf (.cru n) f.sx) 0 23
     let traps (i : Instr) (pitch rows : Nat) : Prop :=
       let fits := a + (rows - 1) * pitch + 256 ≤ 0x600000
       let aligned := a % 64 = 0 ∧ p % 64 = 0
       (¬fits → exec i s = .next (s.trapNext n (muQ f.mu) tRange (a % 2 ^ 41))) ∧
       (fits → ¬aligned → exec i s = .next (s.trapNext n (muQ f.mu) tMisaligned (a % 2 ^ 41))) ∧
       (∀ x, fits → aligned → s.mpoRows n.val a pitch rows 256 = some (tMouldPoison, x) →
         exec i s = .next (s.trapNext n (muQ f.mu) tMouldPoison x))
     (s.mqReady n f ⟨[f.sa, f.sx], []⟩ → f.tya = 0 → f.rm = 0 → f.sat = false →
       let pitch := if p = 0 then 256 else p
       traps (.tld (.cru n) f) pitch 64 ∧
       (a % 64 = 0 → p % 64 = 0 → a + 63 * pitch + 256 ≤ 0x600000 → s.mpoRows n.val a pitch 64 256 = none →
         ∃ t, exec (.tld (.cru n) f) s = .next t ∧ s.onlyTile t n f (s.flagsOf n) (s.weights n) ∧
           ∀ i < 64, ∀ j < 64, t.tileAt n f i j = BitVec.ofNat 32 (s.mouldNat n.val (a + i * pitch + 4 * j) 4))) ∧
     (s.mqReady n f ⟨[f.sa], []⟩ → f.sx = 0 → (f.tya = 0 ∨ f.tya = 0x0A) → f.rm.toNat < 2 → f.sat = false →
       traps (.tsclC (.cru n) f) 0 1 ∧ traps (.tsclR (.cru n) f) 0 1 ∧
       (a % 64 = 0 → a + 256 ≤ 0x600000 → s.mpoRows n.val a 0 1 256 = none →
         let c (k : Nat) : Reg := BitVec.ofNat 32 (s.mouldNat n.val (a + 4 * k) 4)
         let col (i j : Nat) : Reg × Flags := tsclElem f.tya.toNat (rmOf f.rm) (s.tileAt n f i j) (c j)
         let row (i j : Nat) : Reg × Flags := tsclElem f.tya.toNat (rmOf f.rm) (s.tileAt n f i j) (c i)
         let fl (e : Nat → Nat → Reg × Flags) : BitVec 6 := s.flagsOf n ||| (tileFlags (fun i j => (e i j).2)).bits
         (∃ t, exec (.tsclC (.cru n) f) s = .next t ∧ s.onlyTile t n f (fl col) (s.weights n) ∧
           (∀ i < 64, ∀ j < 64, t.tileAt n f i j = (col i j).1) ∧ ∀ b, 2 ≤ b → (t.flagsOf n).getLsbD b = (s.flagsOf n).getLsbD b) ∧
         (∃ t, exec (.tsclR (.cru n) f) s = .next t ∧ s.onlyTile t n f (fl row) (s.weights n) ∧
           (∀ i < 64, ∀ j < 64, t.tileAt n f i j = (row i j).1) ∧ ∀ b, 2 ≤ b → (t.flagsOf n).getLsbD b = (s.flagsOf n).getLsbD b))))

/-- Drawn from R159 to R161, R131, Table 4.1: the product of an FP32 A tile and an FP32 B tile, each element accumulated by one fused
multiply-add for each k in rising order from the old element or from +0 where Z is 1. The other pairs of Table 5.3 complete with the
elements of the accumulator that `mmaElem` gives. The B tile stands in the weight buffer of the MU; NV and OF alone may be set. Operands
beyond the mould, then misaligned ones, then poisoned ones trap, and change no tile. -/
def Obligations.MatrixMultiplyAccumulate : Prop :=
  ∀ (s : State) (n : Fin 72) (f : FmtD), s.mqReady n f ⟨[f.sa, f.sb, f.sx], []⟩ → pairOk f.tya.toNat f.tyb.toNat = true → f.rm = 0 →
    f.sat = false → f.rsv = 0 →
    let x := s.sOf (.cru n) f.sx
    let k := if f.tya = 0x17 then 128 else 64
    let rowa := k * tyWidth f.tya.toNat / 8
    let blen := k * 64 * tyWidth f.tyb.toNat / 8
    let a := (s.sOf (.cru n) f.sa).toNat
    let b := (s.sOf (.cru n) f.sb).toNat
    let pitch := if bitsOf x 0 23 = 0 then rowa else bitsOf x 0 23
    let asc := bitsOf x 23 23
    let mx := isMx f.tya.toNat
    let sl := if mx then 64 * (k / 32) else 0
    let fits := a + 63 * pitch + rowa ≤ 0x600000 ∧ b + blen + sl ≤ 0x600000 ∧ (mx = true → asc + sl ≤ 0x600000)
    let aligned := a % 16 = 0 ∧ bitsOf x 0 23 % 16 = 0 ∧ b % 64 = 0 ∧ (mx = true → asc % 64 = 0)
    let poison := firstTrap [s.mpoRows n.val a pitch 64 rowa, s.mpoRows n.val b 0 1 blen, if mx then s.mpoRows n.val asc 0 1 sl else none,
      if mx then s.mpoRows n.val (b + blen) 0 1 sl else none]
    (¬fits → ∃ y ∈ [a, b, asc, b + blen], exec (.mma (.cru n) f) s = .next (s.trapNext n (muQ f.mu) tRange (y % 2 ^ 41))) ∧
    (fits → ¬aligned → ∃ y ∈ [a, b, asc], exec (.mma (.cru n) f) s = .next (s.trapNext n (muQ f.mu) tMisaligned (y % 2 ^ 41))) ∧
    (∀ y, fits → aligned → poison = some (tMouldPoison, y) → exec (.mma (.cru n) f) s = .next (s.trapNext n (muQ f.mu) tMouldPoison y)) ∧
    (fits → aligned → poison = none →
      let e (i j : Nat) : Reg × Flags :=
        mmaElem f.tya.toNat f.tyb.toNat k (s.mouldNat n.val (a + i * pitch) rowa) (s.mouldNat n.val b blen)
          (if mx then s.mouldNat n.val asc sl else 0) (if mx then s.mouldNat n.val (b + blen) sl else 0) i j
          (if f.z then 0 else s.tileAt n f i j)
      ∃ t, exec (.mma (.cru n) f) s = .next t ∧
        s.onlyTile t n f (s.flagsOf n ||| (tileFlags (fun i j => (e i j).2)).bits) (tblSet (s.weights n) (b2n f.mu) (s.mouldRead n.val b blen)) ∧
        (∀ i < 64, ∀ j < 64, t.tileAt n f i j = (e i j).1) ∧
        (∀ i, 2 ≤ i → (t.flagsOf n).getLsbD i = (s.flagsOf n).getLsbD i) ∧
        (f.tya = 0 → ∀ i < 64, ∀ j < 64, t.tileAt n f i j =
          (List.range 64).foldl (fun acc q => (fmaF32 .rne (BitVec.ofNat 32 (s.mouldNat n.val (a + i * pitch + 4 * q) 4))
            (BitVec.ofNat 32 (s.mouldNat n.val (b + 256 * q + 4 * j) 4)) acc).1) (if f.z then 0 else s.tileAt n f i j)))

/-- Drawn from R161, R162, R165: tst writes row r of the tile at s[SA] + r × pitch, in rising r: the 256 bytes as they are for FP32 and
INT32; narrowed element by element otherwise, drawing from generator j for element j where RM is SR. Bytes outside the rows keep their
value. A row beyond the mould, and then a misaligned address or pitch, traps. Where rows overlap in the mould the later row remains (the
model's choice, log entry 92). -/
def Obligations.TileStore : Prop :=
  ∀ (s : State) (n : Fin 72) (f : FmtD), s.mqReady n f ⟨[f.sa, f.sx], []⟩ → f.sb = 0 → f.tyb = 0 → f.z = false → f.rsv = 0 →
    ((f.tya = 0 ∨ f.tya = 0x0A) ∧ f.rm = 0 ∧ f.sat = false ∨ (f.tya = 1 ∨ f.tya = 2 ∨ f.tya = 3 ∨ f.tya = 4 ∨ f.tya = 8) ∧ f.rm ≠ 3) →
    let a := (s.sOf (.cru n) f.sa).toNat
    let p := bitsOf (s.sOf (.cru n) f.sx) 0 23
    let raw := f.tya = 0 ∨ f.tya = 0x0A
    let len := 8 * tyWidth f.tya.toNat
    let pitch := if p = 0 then len else p
    let fits := a + 63 * pitch + len ≤ 0x600000
    let aligned := a % 64 = 0 ∧ p % 64 = 0
    let at' (r : Nat) : Nat := a + r * pitch
    (¬fits → exec (.tst (.cru n) f) s = .next (s.trapNext n (muQ f.mu) tRange (a % 2 ^ 41))) ∧
    (fits → ¬aligned → exec (.tst (.cru n) f) s = .next (s.trapNext n (muQ f.mu) tMisaligned (a % 2 ^ 41))) ∧
    (fits → aligned →
      ∃ t, exec (.tst (.cru n) f) s = .next t ∧
        (raw → t = (List.range 64).foldl (fun u r =>
          u.mouldWrite n.val (at' r) (leBytes 256 ((s.cru n.val).trow (b2n f.mu) f.t.toNat r).toNat)) (s.cruNext n id)) ∧
        (¬raw → t = (List.range 64).foldl (fun u r =>
          let c := u.cru n.val
          let row := c.tstRow f (c.trow (b2n f.mu) f.t.toNat r)
          (u.setCru n.val row.2).mouldWrite n.val (at' r) (leBytes len (ofElems (tyWidth f.tya.toNat) row.1).toNat)) (s.cruNext n id)) ∧
        (Memory.wf s.mould = true →
          (raw → 256 ≤ pitch → ∀ i < 64, ∀ j < 64, t.mouldNat n.val (at' i + 4 * j) 4 = (s.tileAt n f i j).toNat) ∧
          (∀ x, (∀ i < 64, ∀ k < len, x ≠ n.val * 2 ^ 23 + at' i + k) → memGet t.mould x = memGet s.mould x)))

/-! ## Memory instructions -/

/-- Drawn from R148, R195 to R197, R333, R362, R483: loads. On a crucible with an empty XQ: one that its checks stop traps; one that
finds its line in the cache writes the bytes zero- or sign-extended and moves PC, or traps where a word is poisoned; one that does not
find it sends the request of Table 14.2 and waits; one without a home in service traps. On a control core: one whose checks stop it
traps; one in the code window writes the bytes; one elsewhere sends its read and waits, or traps without a home in service. -/
def Obligations.LoadsWriteTheirRegister : Prop :=
  (∀ (s : State) (n : Fin 72) (f : FmtC), s.xqReady n f.g ⟨[f.base, f.idx, f.d], []⟩ → f.rsv = 0 →
    let u := MUnit.cru n
    let a := s.addrOf u f
    let go (i : Instr) (len : Nat) (sgn : Bool) : Prop :=
      (∀ c b, s.cruCheck n.val a len .read true = some (c, b) → ∃ t, exec i s = .next t ∧ s.trappedXq t n c b) ∧
      (s.accessOk n a len .read →
        (∀ x, s.cruDevice n.val a = false → s.lineHere n (a / 64) x →
          let d := lineNat (s.relied (a / 64) x).data a len
          (firstMark x.poison (a % 64) len = none → ∃ t, exec i s = .next t ∧ s.onlyCru t n ∧ (t.cru n.val).cache = (s.cru n.val).cache ∧
            t.mki u = { (s.mki u).setS f.d.toNat (if sgn then (BitVec.ofNat (8 * len) d).signExtend 64 else BitVec.ofNat 64 d) with
              pc := (s.mki u).pc + 8 }) ∧
          (∀ w, firstMark x.poison (a % 64) len = some w → ∃ t, exec i s = .next t ∧
            s.trappedXq t n tPoolPoison (64 * (a / 64) + 8 * w))) ∧
        (∀ k, s.lineAway n (a / 64) k → ∃ t, exec i s = .next t ∧
          s.asked t n i (if s.cruDevice n.val a = false ∧ (s.cru n.val).installs = true then .rds else .rdc) (a / 64) k) ∧
        (s.lineLost n (a / 64) → ∃ t, exec i s = .next t ∧ s.trappedXq t n tMemError a))
    go (.ldb u f) 1 false ∧ go (.ldbs u f) 1 true ∧ go (.ldh u f) 2 false ∧ go (.ldhs u f) 2 true ∧ go (.ldw u f) 4 false ∧
    go (.ldws u f) 4 true ∧ go (.ldd u f) 8 false) ∧
  (∀ (s : State) (e c : Fin 4) (f : FmtC), s.canRun (.core e c) f.g {} → f.rsv = 0 →
    let u := MUnit.core e c
    let x := coreIx e c
    let a := s.addrOf u f
    let go (i : Instr) (len : Nat) (sgn : Bool) : Prop :=
      (∀ k b, s.poolCheck u a len .read true = some (k, b) → exec i s = .next ((s.wake u).coreTrap x (s.mki u).pc k b)) ∧
      (let d := s.codeNat e.val (a - s.codeWindow) len
       s.codeOk e c a len → exec i s =
        .next (s.afterS u f.d (if sgn then (BitVec.ofNat (8 * len) d).signExtend 64 else BitVec.ofNat 64 d))) ∧
      (s.poolCheck u a len .read true = none → s.inCodeWindow a = false →
        (∀ k, s.homeUp (a / 64) = some k → s.posted (aidCore x) (a / 64) = false → s.hasCredit (aidCore x) k = true →
          ∃ t, exec i s = .next t ∧ (t.mki u) = { s.mki u with pc := (s.mki u).pc + 8 } ∧ (∃ q, (t.core x).wait = .load q s.tags) ∧
            ∃ m ∈ t.net, m.kind = .rdc ∧ m.aid = aidCore x ∧ m.home = k ∧ m.line = a / 64 ∧ m.tag = s.tags) ∧
        (s.homeUp (a / 64) = none → exec i s = .next ((s.wake u).coreTrap x (s.mki u).pc tMemError a)))
    go (.ldb u f) 1 false ∧ go (.ldbs u f) 1 true ∧ go (.ldh u f) 2 false ∧ go (.ldhs u f) 2 true ∧ go (.ldw u f) 4 false ∧
    go (.ldws u f) 4 true ∧ go (.ldd u f) 8 false)

/-- Drawn from R148, R195, R197, R199, R239, R333, R336, R361, R363, R483: stores. On a crucible with an empty XQ, when no earlier
instruction may yet trap: one that its checks stop traps; one that owns its line in D or X changes exactly the stored bytes of its copy,
which becomes D, and no other copy, register or memory; one to a shared copy asks to own it, and one without a copy asks for the line, or
sends its bytes to the home where nothing is installed; one without a home in service traps. On a control core: one whose checks stop it
traps; one to the firmware data of the code window changes exactly those bytes; one elsewhere sends its bytes and goes on, or traps
without a home in service. -/
def Obligations.StoresWriteTheirBytes : Prop :=
  (∀ (s : State) (n : Fin 72) (f : FmtC), s.xqReady n f.g ⟨[f.base, f.idx, f.d], []⟩ → s.storesFree n → f.rsv = 0 →
    let u := MUnit.cru n
    let a := s.addrOf u f
    let go (i : Instr) (len : Nat) : Prop :=
      (∀ c b, s.cruCheck n.val a len .write true = some (c, b) → ∃ t, exec i s = .next t ∧ s.trappedXq t n c b) ∧
      (s.accessOk n a len .write →
        (∀ x, s.cruDevice n.val a = false → s.lineHere n (a / 64) x →
          (x.st = .d ∨ x.st = .x → ∃ t y, exec i s = .next t ∧ s.onlyCru t n ∧ s.movedOn t n ∧
            (t.cru n.val).cache = tblSet (s.cru n.val).cache (a / 64) y ∧ y.st = .d ∧ y.way = x.way ∧
            (∀ k < 64, lineByte y.data k = (if a % 64 ≤ k ∧ k < a % 64 + len then lineByte ((s.sOf u f.d).setWidth 512) (k - a % 64)
              else lineByte x.data k)) ∧
            y.poison = (if len = 8 then x.poison &&& ~~~(BitVec.ofNat 8 (2 ^ (a % 64 / 8))) else x.poison)) ∧
          (∀ k, x.st = .s ∨ x.st = .l → s.homeUp (a / 64) = some k → (s.cru n.val).miss.length < 384 → s.hasCredit n.val k = true →
            ∃ t, exec i s = .next t ∧ s.asked t n i .upg (a / 64) k)) ∧
        (∀ k, s.lineAway n (a / 64) k →
          (s.cruDevice n.val a = false → (s.cru n.val).installs = true → ∃ t, exec i s = .next t ∧ s.asked t n i .rdx (a / 64) k) ∧
          (s.cruDevice n.val a = true ∨ (s.cru n.val).installs = false → ∃ t, exec i s = .next t ∧ s.movedOn t n ∧
            ((t.cru n.val).xq = [] ↔ s.cruDevice n.val a = false) ∧
            ∃ m ∈ t.net, m.kind = .wrp ∧ m.aid = n.val ∧ m.home = k ∧ m.line = a / 64 ∧ m.mask = byteMask (a % 64) len ∧
              ∀ j < len, lineByte m.data (a % 64 + j) = lineByte ((s.sOf u f.d).setWidth 512) j)) ∧
        (s.lineLost n (a / 64) → ∃ t, exec i s = .next t ∧ s.trappedXq t n tMemError a))
    go (.stb u f) 1 ∧ go (.sth u f) 2 ∧ go (.stw u f) 4 ∧ go (.std u f) 8) ∧
  (∀ (s : State) (e c : Fin 4) (f : FmtC), s.canRun (.core e c) f.g {} → f.rsv = 0 →
    let u := MUnit.core e c
    let x := coreIx e c
    let a := s.addrOf u f
    let o := e.val * 2 ^ 23 + (a - s.codeWindow)
    let go (i : Instr) (len : Nat) : Prop :=
      (∀ k b, s.poolCheck u a len .write true = some (k, b) → exec i s = .next ((s.wake u).coreTrap x (s.mki u).pc k b)) ∧
      (s.inCodeWindow a = true → a < 2 ^ 41 → a % len = 0 → s.codeWindow + 0x500000 ≤ a → Memory.wf s.code = true → ∃ t, exec i s = .next t ∧
        t = { s with code := t.code, codePoison := t.codePoison, cores := t.cores } ∧
        t.mki u = { s.mki u with pc := (s.mki u).pc + 8 } ∧
        (∀ k < len, memGet t.code (o + k) = lineByte ((s.sOf u f.d).setWidth 512) k) ∧
        (∀ y, (y < o ∨ o + len ≤ y) → memGet t.code y = memGet s.code y)) ∧
      (s.poolCheck u a len .write true = none → s.inCodeWindow a = false →
        (∀ k, s.homeUp (a / 64) = some k → s.posted (aidCore x) (a / 64) = false → s.hasCredit (aidCore x) k = true →
          ∃ t, exec i s = .next t ∧ (t.mki u) = { s.mki u with pc := (s.mki u).pc + 8 } ∧
            ∃ m ∈ t.net, m.kind = .wrp ∧ m.aid = aidCore x ∧ m.home = k ∧ m.line = a / 64 ∧ m.mask = byteMask (a % 64) len ∧
              ∀ j < len, lineByte m.data (a % 64 + j) = lineByte ((s.sOf u f.d).setWidth 512) j) ∧
        (s.homeUp (a / 64) = none → exec i s = .next ((s.wake u).coreTrap x (s.mki u).pc tMemError a)))
    go (.stb u f) 1 ∧ go (.sth u f) 2 ∧ go (.stw u f) 4 ∧ go (.std u f) 8)

/-- Drawn from R148, R195, R198, R200, R362, R363, R370 to R372, R374, R375: pairs and the reserved pair. On a crucible a pair that its
checks stop traps; one that finds the line of a pair in its cache, both words move at once; elsewhere the request goes out, and a STP
waits for its line or sends its bytes. A cache-held LDRES on a line the crucible holds reserves it; a cache-held STCOND writes and
answers 0 where the reservation stands, but for the spurious failure that R375 allows (a free value), and writes nothing and answers 1
where none stands; the reservation ends either way. Home-held, and on a control core, LDRES sends a read that reserves and STCOND a write
that the home judges. A STCOND to a DEVICE segment answers 1. -/
def Obligations.PairsAndReservations : Prop :=
  (∀ (s : State) (n : Fin 72) (f : FmtC), f.rsv = 0 →
    let u := MUnit.cru n
    let m := s.mki u
    let a := s.addrOf u f
    (f.d.getLsbD 0 = false → s.xqReady n f.g ⟨[f.base, f.idx, f.d, oddOf f.d], []⟩ →
      (∀ c b, s.cruCheck n.val a 16 .read true = some (c, b) → ∃ t, exec (.ldp u f) s = .next t ∧ s.trappedXq t n c b) ∧
      (∀ c b, s.storesFree n → s.cruCheck n.val a 16 .write true = some (c, b) → ∃ t, exec (.stp u f) s = .next t ∧ s.trappedXq t n c b) ∧
      (s.accessOk n a 16 .read →
        (∀ x, s.cruDevice n.val a = false → s.lineHere n (a / 64) x → firstMark x.poison (a % 64) 16 = none →
          let d := (s.relied (a / 64) x).data
          ∃ t, exec (.ldp u f) s = .next t ∧ s.onlyCru t n ∧
            t.mki u = { (m.setS f.d.toNat (BitVec.ofNat 64 (lineNat d a 8))).setS (f.d.toNat + 1) (BitVec.ofNat 64 (lineNat d (a + 8) 8)) with
              pc := m.pc + 8 }) ∧
        (∀ k, s.lineAway n (a / 64) k → ∃ t, exec (.ldp u f) s = .next t ∧
          s.asked t n (.ldp u f) (if s.cruDevice n.val a = false ∧ (s.cru n.val).installs = true then .rds else .rdc) (a / 64) k)) ∧
      (s.storesFree n → s.accessOk n a 16 .write →
        (∀ x, s.cruDevice n.val a = false → s.lineHere n (a / 64) x → (x.st = .d ∨ x.st = .x) →
          ∃ t y, exec (.stp u f) s = .next t ∧ s.onlyCru t n ∧ s.movedOn t n ∧ (t.cru n.val).cache = tblSet (s.cru n.val).cache (a / 64) y ∧
            y.st = .d ∧ lineNat y.data a 8 = (m.sreg f.d.toNat).toNat ∧ lineNat y.data (a + 8) 8 = (m.sreg (f.d.toNat + 1)).toNat) ∧
        (∀ k, s.lineAway n (a / 64) k → s.cruDevice n.val a = false → (s.cru n.val).installs = true →
          ∃ t, exec (.stp u f) s = .next t ∧ s.asked t n (.stp u f) .rdx (a / 64) k) ∧
        (∀ k, s.lineAway n (a / 64) k → s.cruDevice n.val a = true →
          ∃ t, exec (.stp u f) s = .next t ∧ s.asked t n (.stp u f) .wrp (a / 64) k))) ∧
    (f.sh = 0 → f.idx = 0 → s.accessOk n a 8 .read → s.xqReady n f.g ⟨[f.base, f.idx, f.d], []⟩ →
      (∀ x, s.cruDevice n.val a = false → s.cacheHeld n.val = true → s.lineHere n (a / 64) x → firstMark x.poison (a % 64) 8 = none →
        ∃ t, exec (.ldres u f) s = .next t ∧ (t.cru n.val).resv = some (a / 64) ∧ t.holdsHome n.val = false ∧
          t.mki u = { m.setS f.d.toNat (BitVec.ofNat 64 (lineNat (s.relied (a / 64) x).data a 8)) with pc := m.pc + 8 } ∧
          t.mould = s.mould ∧ t.stack = s.stack) ∧
      (∀ k, s.lineAway n (a / 64) k → ∃ t, exec (.ldres u f) s = .next t ∧
        s.asked t n (.ldres u f) (if s.cruDevice n.val a = false ∧ s.cacheHeld n.val = true then .rds else .rdc) (a / 64) k)) ∧
    (let a := (s.sOf u f.base + f.off.signExtend 64).toNat
     f.sh = 0 → s.storesFree n → s.accessOk n a 8 .write → s.xqReady n f.g ⟨[f.base, f.d, f.idx], []⟩ →
      let done (t : State) (v : Word) : Prop := (t.cru n.val).resv = none ∧ t.mki u = { m.setS f.idx.toNat v with pc := m.pc + 8 }
      (s.cruDevice n.val a = true → ∃ t, exec (.stcond u f) s = .next t ∧ done t 1 ∧ (t.cru n.val).cache = (s.cru n.val).cache) ∧
      (s.cruDevice n.val a = false → s.cacheHeld n.val = true → s.holdsHome n.val = false →
        (∀ x, (s.cru n.val).resv = some (a / 64) → s.lineHere n (a / 64) x → (x.st = .d ∨ x.st = .x) →
          ∃ t, exec (.stcond u f) s = .next t ∧
            ((done t 0 ∧ ∃ y, tblFind (t.cru n.val).cache (a / 64) = some y ∧ y.st = .d ∧ lineNat y.data a 8 = (m.sreg f.d.toNat).toNat) ∨
             (done t 1 ∧ (t.cru n.val).cache = (s.cru n.val).cache ∧ Config.freeBool s.free = true))) ∧
        ((s.cru n.val).resv ≠ some (a / 64) → tblFind (s.cru n.val).miss (a / 64) = none →
          ∃ t, exec (.stcond u f) s = .next t ∧ done t 1 ∧ (t.cru n.val).cache = (s.cru n.val).cache)) ∧
      (∀ k, s.cruDevice n.val a = false → s.cacheHeld n.val = false → s.fld 0x2C000 8 2 ≠ 1 → s.lineAway n (a / 64) k →
        ∃ t, exec (.stcond u f) s = .next t ∧ s.asked t n (.stcond u f) .wrp (a / 64) k))) ∧
  (∀ (s : State) (e c : Fin 4) (f : FmtC) (k : Nat), s.canRun (.core e c) f.g {} → f.rsv = 0 →
    let u := MUnit.core e c
    let x := coreIx e c
    let m := s.mki u
    let moved (t : State) : Prop := t.mki u = { m with pc := m.pc + 8 }
    let sent (t : State) (kd : MsgKind) (line : Nat) (r : Bool) : Prop :=
      ∃ q ∈ t.net, q.kind = kd ∧ q.aid = aidCore x ∧ q.home = k ∧ q.line = line ∧ q.resv = r
    let free (a : Nat) : Prop := s.inCodeWindow a = false ∧ s.homeUp (a / 64) = some k ∧ s.posted (aidCore x) (a / 64) = false ∧
      s.hasCredit (aidCore x) k = true
    let a := s.addrOf u f
    (f.d.getLsbD 0 = false → free a →
      (s.poolCheck u a 16 .read true = none → ∃ t, exec (.ldp u f) s = .next t ∧ moved t ∧ sent t .rdc (a / 64) false) ∧
      (s.poolCheck u a 16 .write true = none → ∃ t, exec (.stp u f) s = .next t ∧ moved t ∧ sent t .wrp (a / 64) false)) ∧
    (f.sh = 0 → f.idx = 0 → free a → s.poolCheck u a 8 .read true = none →
      ∃ t, exec (.ldres u f) s = .next t ∧ moved t ∧ sent t .rdc (a / 64) true) ∧
    (let a := (s.sOf u f.base + f.off.signExtend 64).toNat
     f.sh = 0 → s.poolCheck u a 8 .write true = none →
      (free a → s.fld 0x2C000 8 2 ≠ 1 → ∃ t, exec (.stcond u f) s = .next t ∧ moved t ∧ sent t .wrp (a / 64) true) ∧
      (s.inCodeWindow a = true → (s.core x).codeResv ≠ some ((a - s.codeWindow) / 64) → ∃ t, exec (.stcond u f) s = .next t ∧
        t.code = s.code ∧ (t.core x).codeResv = none ∧ t.mki u = { m.setS f.idx.toNat 1 with pc := m.pc + 8 })))

/-- Drawn from R202, R203, R331, R514: a RAM with a free credit posts its line to the home and completes, and is refused without one in
service; cln and cfl of a dirty line begin its write-back, the copy staying as X under cln and ending under cfl; of a clean line cln does
nothing and cfl ends the copy, with an EvC but for S; of a line not present both do nothing. R166 to R171, R335, R347: a transfer of one
line between the pool and the mould: where the crucible's cache holds the line it moves its 64 bytes and marks; elsewhere its request
goes out, or a write that installs nothing goes to the home. A transfer of no lines does nothing, and one that a check of R167 stops
traps. -/
def Obligations.LineTransfersAndRam : Prop :=
  ((∀ (s : State) (n : Fin 72) (f : FmtC) (fn : BitVec 4), s.xqReady n f.g ⟨[f.base, f.idx, f.d], []⟩ → s.storesFree n → f.rsv = 0 →
     ramDefined fn.toNat = true →
     let a := s.addrOf (.cru n) f
     let m := (s.sOf (.cru n) f.d).toNat
     s.mpoRows n.val m 0 1 64 = none → m % 64 = 0 → m + 64 ≤ 0x600000 → a % 64 = 0 → a < 2 ^ 41 →
     s.flaskCheck (s.cru n.val).mki.flask .write false a 64 = none →
     (∀ k, s.homeUp (a / 64) = some k → s.posted n.val (a / 64) = false → s.hasCredit n.val k = true →
       ∃ t, exec (.ram (.cru n) f fn) s = .next t ∧ s.movedOn t n ∧ t.mould = s.mould ∧ (t.cru n.val).xq = [] ∧
         t.net = s.net ++ [{ kind := .ram, aid := n.val, home := k, line := a / 64, tag := s.tags, op := fn,
                             data := BitVec.ofNat 512 (s.mouldNat n.val m 64) }]) ∧
     (s.homeUp (a / 64) = none → ∃ t, exec (.ram (.cru n) f fn) s = .next t ∧ s.movedOn t n ∧ (t.cru n.val).xq = [] ∧ t.net = s.net)) ∧
   (∀ (s : State) (n : Fin 72) (f : FmtC), s.xqReady n f.g ⟨[f.base, f.idx], []⟩ → f.rsv = 0 → f.d = 0 →
     let a := s.addrOf (.cru n) f
     let line := a / 64
     let c := s.cru n.val
     a < 2 ^ 41 → s.flaskCheck c.mki.flask .any true a 1 = none → c.cst ≠ .invalidating → tblFind c.wb line = none → tblFind c.miss line = none →
     (∀ x, tblFind c.cache line = some x →
       (∀ k, s.homeUp line = some k → c.wb.length < 32 → s.hasCredit n.val k = true →
         let msg (kd : MsgKind) : Msg :=
           { kind := kd, aid := n.val, home := k, line := line, tag := s.tags, data := x.data, poison := x.poison != 0 }
         (x.st = .d →
           (∃ t, exec (.cln (.cru n) f) s = .next t ∧ s.movedOn t n ∧ t.net = s.net ++ [msg .wbk] ∧
             (t.cru n.val).cache = tblSet c.cache line { x with st := .x }) ∧
           (∃ t, exec (.cfl (.cru n) f) s = .next t ∧ s.movedOn t n ∧ t.net = s.net ++ [msg .wbd] ∧ (t.cru n.val).cache = tblDel c.cache line)) ∧
         (x.st = .x ∨ x.st = .l → ∃ t, exec (.cfl (.cru n) f) s = .next t ∧ s.movedOn t n ∧ t.net = s.net ++ [msg .evc] ∧
           (t.cru n.val).cache = tblDel c.cache line)) ∧
       (x.st ≠ .d → ∃ t, exec (.cln (.cru n) f) s = .next t ∧ s.movedOn t n ∧ t.net = s.net ∧ (t.cru n.val).cache = c.cache) ∧
       (x.st = .s → ∃ t, exec (.cfl (.cru n) f) s = .next t ∧ s.movedOn t n ∧ t.net = s.net ∧ (t.cru n.val).cache = tblDel c.cache line)) ∧
     (tblFind c.cache line = none →
       (∃ t, exec (.cln (.cru n) f) s = .next t ∧ s.movedOn t n ∧ t.net = s.net ∧ (t.cru n.val).cache = c.cache) ∧
       (∃ t, exec (.cfl (.cru n) f) s = .next t ∧ s.movedOn t n ∧ t.net = s.net ∧ (t.cru n.val).cache = c.cache)))) ∧
  (∀ (s : State) (n : Fin 72) (f : FmtD), s.xqReady n f.g ⟨[f.sa, f.sb, f.sx], []⟩ → badXfer f = false →
     let u := MUnit.cru n
     let p := (s.sOf u f.sa).toNat
     let m := (s.sOf u f.sb).toNat
     let w := s.sOf u f.sx
     let xf (stream : Bool) : Xfer := { pool := p, mould := m, pp := 64 * bitsOf w 24 20, mp := 64 * bitsOf w 44 20, len := bitsOf w 0 12,
                                        rows := bitsOf w 12 12, stream := stream }
     (∀ c a, (xf false).total ≠ 0 → s.xferCheck n.val (xf false) .read = some (c, a) →
       (∃ t, exec (.xld u f) s = .next t ∧ s.trappedXq t n c a) ∧ (∃ t, exec (.xldn u f) s = .next t ∧ s.trappedXq t n c a)) ∧
     (∀ c a, (xf false).total ≠ 0 → s.storesFree n → s.xferCheck n.val (xf false) .write = some (c, a) →
       (∃ t, exec (.xst u f) s = .next t ∧ s.trappedXq t n c a) ∧ (∃ t, exec (.xstn u f) s = .next t ∧ s.trappedXq t n c a)) ∧
     (bitsOf w 0 12 * bitsOf w 12 12 = 0 → s.storesFree n →
       (∃ t, exec (.xld u f) s = .next t ∧ s.onlyCru t n ∧ s.movedOn t n) ∧ (∃ t, exec (.xldn u f) s = .next t ∧ s.onlyCru t n ∧ s.movedOn t n) ∧
       (∃ t, exec (.xst u f) s = .next t ∧ s.onlyCru t n ∧ s.movedOn t n) ∧ (∃ t, exec (.xstn u f) s = .next t ∧ s.onlyCru t n ∧ s.movedOn t n)) ∧
     (bitsOf w 0 12 = 1 → bitsOf w 12 12 = 1 → p % 64 = 0 → p + 64 ≤ 2 ^ 41 → m % 64 = 0 → m + 64 ≤ 0x600000 →
       (s.flaskCheck (s.cru n.val).mki.flask .read false p 64 = none →
         (∀ x, s.lineHere n (p / 64) x → Memory.wf s.mould = true →
           let moved (t : State) : Prop := (∀ k < 64, memGet t.mould (n.val * 2 ^ 23 + m + k) = lineByte (s.relied (p / 64) x).data k) ∧
             (∀ y, (y < n.val * 2 ^ 23 + m ∨ n.val * 2 ^ 23 + m + 64 ≤ y) → memGet t.mould y = memGet s.mould y) ∧
             (∀ k < 8, (n.val * 2 ^ 20 + m / 8 + k) ∈ t.mouldPoison ↔ x.poison.getLsbD k = true) ∧
             s.movedOn t n ∧ t.stack = s.stack ∧ t.net = s.net
           (∃ t, exec (.xld u f) s = .next t ∧ moved t) ∧ (∃ t, exec (.xldn u f) s = .next t ∧ moved t)) ∧
         (∀ k, s.lineAway n (p / 64) k →
           (∃ t, exec (.xld u f) s = .next t ∧ s.asked t n (.xld u f) (if (s.cru n.val).installs then .rds else .rdc) (p / 64) k) ∧
           (∃ t, exec (.xldn u f) s = .next t ∧ s.asked t n (.xldn u f) .rdc (p / 64) k))) ∧
       (s.flaskCheck (s.cru n.val).mki.flask .write false p 64 = none → s.storesFree n →
         (∀ x, s.lineHere n (p / 64) x → (x.st = .d ∨ x.st = .x) →
           let moved (t : State) (y : CLine) : Prop := (t.cru n.val).cache = tblSet (s.cru n.val).cache (p / 64) y ∧ y.st = .d ∧
             (∀ k < 64, lineByte y.data k = memGet s.mould (n.val * 2 ^ 23 + m + k)) ∧
             y.poison = (if s.mouldMarks n.val m = 0 then 0 else 0xFF) ∧ s.movedOn t n ∧ t.mould = s.mould ∧ t.net = s.net
           (∃ t y, exec (.xst u f) s = .next t ∧ moved t y) ∧ (∃ t y, exec (.xstn u f) s = .next t ∧ moved t y)) ∧
         (∀ k, s.lineAway n (p / 64) k →
           ((s.cru n.val).installs = true → ∃ t, exec (.xst u f) s = .next t ∧ s.asked t n (.xst u f) .rdx (p / 64) k) ∧
           (∃ t, exec (.xstn u f) s = .next t ∧ s.movedOn t n ∧ (t.cru n.val).xq = [] ∧ ∃ q ∈ t.net, q.kind = .wrf ∧ q.aid = n.val ∧
             q.home = k ∧ q.line = p / 64 ∧ q.data = BitVec.ofNat 512 (s.mouldNat n.val m 64) ∧ q.poison = (s.mouldMarks n.val m != 0))))))

/-- Drawn from R204, R205, R214: leaf access through a stream of the charge's pour: the read leaf for lfld, the write leaf for lfst and
lfldw, one line: where the cache holds it the line moves, elsewhere the request or the streamed write goes out; lfq gives a leaf's PPA or
the leaf's size. A leaf instruction without such a stream traps FLASK. -/
def Obligations.LeafAccess : Prop :=
  ∀ (s : State) (n : Fin 72) (f : FmtC), f.rsv = 0 → f.sh = 0 →
    let u := MUnit.cru n
    let num := s.sOf u f.base
    let off := (s.sOf u f.idx).toNat
    let m := (s.sOf u f.d).toNat
    (∀ t0, s.leafOf n.val num = some t0 →
      let rd := if t0.cur then t0.leafB else t0.leafA
      let wr := if t0.cur then t0.leafA else t0.leafB
      (s.xqReady n f.g ⟨[f.base, f.idx, f.d], []⟩ → f.off = 1 →
        off % 64 = 0 → m % 64 = 0 → m + 64 ≤ 0x600000 → off + 64 ≤ 64 * t0.size →
        let load (i : Instr) (leaf : Nat) (stream : Bool) : Prop := (leaf + off) % 64 = 0 →
          s.flaskCheck (s.cru n.val).mki.flask .read false (leaf + off) 64 = none →
          (∀ x, s.lineHere n ((leaf + off) / 64) x → Memory.wf s.mould = true →
            ∃ t, exec i s = .next t ∧ s.movedOn t n ∧
              (∀ k < 64, memGet t.mould (n.val * 2 ^ 23 + m + k) = lineByte (s.relied ((leaf + off) / 64) x).data k) ∧
              (∀ y, (y < n.val * 2 ^ 23 + m ∨ n.val * 2 ^ 23 + m + 64 ≤ y) → memGet t.mould y = memGet s.mould y)) ∧
          (∀ k, s.lineAway n ((leaf + off) / 64) k → ∃ t, exec i s = .next t ∧
            s.asked t n i (if stream = false ∧ (s.cru n.val).installs = true then .rds else .rdc) ((leaf + off) / 64) k)
        let may : Prop := (wr + off) % 64 = 0 ∧ s.storesFree n ∧ s.flaskCheck (s.cru n.val).mki.flask .write false (wr + off) 64 = none
        let store (i : Instr) : Prop := ∀ x, s.lineHere n ((wr + off) / 64) x → (x.st = .d ∨ x.st = .x) →
          ∃ t y, exec i s = .next t ∧ s.movedOn t n ∧ (t.cru n.val).cache = tblSet (s.cru n.val).cache ((wr + off) / 64) y ∧ y.st = .d ∧
            (∀ k < 64, lineByte y.data k = memGet s.mould (n.val * 2 ^ 23 + m + k)) ∧ t.mould = s.mould
        load (.lfld u f) rd false ∧ load (.lfldn u f) rd true ∧ load (.lfldw u f) wr false ∧ load (.lfldwn u f) wr true ∧
        (may → store (.lfst u f) ∧ store (.lfstn u f) ∧
          (∀ k, s.lineAway n ((wr + off) / 64) k →
            ((s.cru n.val).installs = true → ∃ t, exec (.lfst u f) s = .next t ∧ s.asked t n (.lfst u f) .rdx ((wr + off) / 64) k) ∧
            (∃ t, exec (.lfstn u f) s = .next t ∧ s.movedOn t n ∧ (t.cru n.val).xq = [] ∧ ∃ q ∈ t.net, q.kind = .wrf ∧ q.aid = n.val ∧
              q.home = k ∧ q.line = (wr + off) / 64 ∧ q.data = BitVec.ofNat 512 (s.mouldNat n.val m 64))))) ∧
      (s.xqReady n f.g ⟨[f.base, f.d], []⟩ → f.idx = 0 → f.off = 0 →
        let gives (i : Instr) (v : Nat) : Prop := ∃ t, exec i s = .next t ∧ s.onlyCru t n ∧
          t.mki u = { (s.mki u).setS f.d.toNat (BitVec.ofNat 64 v) with pc := (s.mki u).pc + 8 }
        gives (.lfq u f 0) rd ∧ gives (.lfq u f 1) wr ∧ gives (.lfq u f 2) (64 * t0.size))) ∧
    (s.leafOf n.val num = none →
      (s.xqReady n f.g ⟨[f.base, f.idx, f.d], []⟩ → s.storesFree n → f.off = 1 → off % 64 = 0 → m % 64 = 0 → m + 64 ≤ 0x600000 →
        let traps (i : Instr) : Prop := ∃ t, exec i s = .next t ∧ s.trappedXq t n tFlask 0
        traps (.lfld u f) ∧ traps (.lfldn u f) ∧ traps (.lfldw u f) ∧ traps (.lfldwn u f) ∧ traps (.lfst u f) ∧ traps (.lfstn u f)) ∧
      (s.xqReady n f.g ⟨[f.base, f.d], []⟩ → f.idx = 0 → f.off = 0 →
        ∀ fn : BitVec 4, fn.toNat < 3 → ∃ t, exec (.lfq u f fn) s = .next t ∧ s.trappedXq t n tFlask 0))

/-! ## Register access -/

/-- Drawn from R26, R27, R31, R32, R35, R568, Table 26.3: register writes. REGISTER_WRITE, RWC_WRITE, WIDE_LOW_WRITE, WIDE_HIGH_WRITE,
PENDING_CANCEL and INT_REARM are one access, told apart by the word they reach. An accepted 32-bit write of a word whose write does
nothing but change its fields changes its RW fields by the page it comes through, and nothing else; reserved fields keep their value, and
a word without writable fields changes nothing. A 64-bit write of two words that are no wider value writes the one and then the other. A
write to an interrupt enable is followed by the comparison of the summary. A write that is not accepted at the word, one of a crucible
and one outside the windows change nothing. R29: a write of fewer than 32 bits and a misaligned write in the block space change nothing,
whoever writes. -/
def Obligations.RegisterWrites : Prop :=
  ((∀ (s : State) (r : Requester) (a : BitVec 32) (sz : AccSize) (d : Word),
     ∀ i ∈ [Instr.rwcWrite r a sz d, .wideLowWrite r a sz d, .wideHighWrite r a sz d, .pendingCancel r a sz d, .intRearm r a sz d],
       ∃ t, exec (.registerWrite r a sz d) s = .next t ∧ exec i s = .next t) ∧
   (∀ (s : State) (r : Requester) (w : Win) (o : Nat) (p : Page) (d : Word), s.plainWord w o → s.accepts r w o = true →
     (regKind w o).rwc = 0 →
     let a := winBase w + o
     ((regKind w o).rw ≠ 0 → exec (.registerWrite r (pageAddr w o p) .b4 d) s =
       .next (s.setReg a (pageOp p (s.reg a) (d.setWidth 32) (regKind w o).rw))) ∧
     ((regKind w o).rw = 0 → exec (.registerWrite r (pageAddr w o p) .b4 d) s = .next s)) ∧
   (∀ (s : State) (r : Requester) (a : BitVec 32) (d : Word) (x : Win × Nat), hostOwn r a.toNat = false → a.toNat % 8 = 0 →
     winOf (pageBase a.toNat) = some x → (wideOf x.1 x.2).2 = 1 →
     ∃ u, exec (.registerWrite r a .b4 d) s = .next u ∧ ∃ t, exec (.registerWrite r (a + 4) .b4 (d >>> 32)) u = .next t ∧
       exec (.registerWrite r a .b8 d) s = .next t) ∧
   (∀ (s : State) (r : Requester) (w : Win) (p : Page) (d : Word), winOf (winBase w + 0xFF4) = some (w, 0xFF4) → s.accepts r w 0xFF4 = true →
     let a := winBase w + 0xFF4
     exec (.registerWrite r (pageAddr w 0xFF4 p) .b4 d) s = .next ((s.setReg a (pageOp p (s.reg a) (d.setWidth 32) 0xFFFFFFFF)).note w)) ∧
   (∀ (s : State) (r : Requester) (a : BitVec 32) (d : Word) (x : Win × Nat), hostOwn r a.toNat = false →
     winOf (pageBase a.toNat) = some x → s.accepts r x.1 x.2 = false → exec (.registerWrite r a .b4 d) s = .next s) ∧
   (∀ (s : State) (r : Requester) (a : BitVec 32) (sz : AccSize) (d : Word), hostOwn r a.toNat = false → winOf (pageBase a.toNat) = none →
     exec (.registerWrite r a sz d) s = .next s) ∧
   (∀ (s : State) (n : Fin 72) (a : BitVec 32) (sz : AccSize) (d : Word), exec (.registerWrite (.cru n) a sz d) s = .next s)) ∧
  (∀ (s : State) (r : Requester) (a : BitVec 32) (sz : AccSize) (d : Word), hostOwn r a.toNat = false →
     (sz = .b1 ∨ sz = .b2 ∨ sz = .b4 ∧ a.toNat % 4 ≠ 0 ∨ sz = .b8 ∧ a.toNat % 8 ≠ 0) →
     exec (.registerWrite r a sz d) s = .next s)

/-- Drawn from R39 to R41: while courses run, an accepted write to the RWC fields of a word changes the buffered value only, which starts
as a copy of the value in effect and takes writes in their order by the page of each; the value in effect stands. While the timebase is
stopped the fields take the value at once, with what that does in their block. RW fields of the same word act as they do elsewhere. -/
def Obligations.RwcWritesAreBuffered : Prop :=
  ∀ (s : State) (r : Requester) (w : Win) (o : Nat) (p : Page) (d : Word), s.plainWord w o → s.accepts r w o = true → (regKind w o).rwc ≠ 0 →
    let a := winBase w + o
    let k := regKind w o
    let v : Reg := d.setWidth 32
    let s1 := if k.rw = 0 then s else s.setReg a (pageOp p (s.reg a) v k.rw)
    let old := tblGet s1.rwcBuf (s1.reg a) a
    (s.tb.running = true → exec (.rwcWrite r (pageAddr w o p) .b4 d) s =
      .next { s1 with rwcBuf := tblSet s1.rwcBuf a (pageOp p old v k.rwc),
                      placeFm := if a = 0x24008 then s1.placeFm.filter (fun i => old.getLsbD i == (pageOp p old v k.rwc).getLsbD i) else s1.placeFm }) ∧
    (s.tb.running = false → exec (.rwcWrite r (pageAddr w o p) .b4 d) s =
      .next ((s1.setReg a (pageOp p (s1.reg a) v k.rwc)).rwcEffect a (s1.reg a)))

/-- Drawn from R28, R42, R45, R568: CANCEL discards the block's buffered values and no other block's; REARM sends one interrupt where the
summary is 1 and none where it is 0. A write of 0 to either field, one through an alias page, and one that is not accepted change
nothing. -/
def Obligations.CancelAndRearm : Prop :=
  ∀ (s : State) (r : Requester) (w : Win) (p : Page) (d : Word), winOf (winBase w + 0xFFC) = some (w, 0xFFC) →
    winOf (winBase w + 0xFF8) = some (w, 0xFF8) →
    let cancel := exec (.pendingCancel r (pageAddr w 0xFFC p) .b4 d) s
    let rearm := exec (.intRearm r (pageAddr w 0xFF8 p) .b4 d) s
    (s.accepts r w 0xFFC = true → p = .base → d.getLsbD 31 = true →
      cancel = .next { s with rwcBuf := s.rwcBuf.filter (fun x => (winOf x.1).map (·.1) ≠ some w), placeFm := if w = .qn then [] else s.placeFm }) ∧
    (s.accepts r w 0xFFC = false ∨ p ≠ .base ∨ d.getLsbD 31 = false → cancel = .next s) ∧
    (s.accepts r w 0xFF8 = true → p = .base → d.getLsbD 0 = true → s.summary w = true →
      rearm = .next { s with irqSent := tblSet s.irqSent (winBase w) (tblGet s.irqSent 0 (winBase w) + 1) }) ∧
    (s.accepts r w 0xFF8 = false ∨ p ≠ .base ∨ d.getLsbD 0 = false ∨ s.summary w = false → rearm = .next s)

/-- Drawn from R45, R194: a block sends one interrupt exactly when its summary changes from 0 to 1, and remembers the value it has seen.
Nothing else changes but that a control core in WFI may go on. -/
def Obligations.InterruptOnRise : Prop :=
  ∀ (s : State) (w : Win),
    let b := winBase w
    let t := s.note w
    tblGet t.irqSent 0 b = tblGet s.irqSent 0 b + (if s.summary w = true ∧ tblGet s.sumLast false b = false then 1 else 0) ∧
    tblGet t.sumLast false b = s.summary w ∧ (∀ k, k ≠ b → tblGet t.irqSent 0 k = tblGet s.irqSent 0 k) ∧
    (∀ k, k ≠ b → tblGet t.sumLast false k = tblGet s.sumLast false k) ∧
    t = { s with irqSent := t.irqSent, sumLast := t.sumLast, cores := t.cores, kss := t.kss, free := t.free } ∧
    ((∀ x ∈ s.cores, x.2.wfi = false) → t = { s with irqSent := t.irqSent, sumLast := t.sumLast })

/-- Drawn from R29, R32, R33, R35, R36, R555, R568: reads of a value of two or four words. A 32-bit read of the lowest word returns it
live and copies the live words above it into the requester's read shadow; a read of a higher word then returns the word of the shadow and
empties its place, and where its place is empty it returns the live word. A 64-bit read of both words of a 64-bit value returns them live
and leaves the shadow. No other requester's shadows change. A misaligned read returns zero, a shorter one the bytes of the live word, and
one outside the requester's reach zero, and none of them touches a shadow; a host's read waits while its gate withholds credits. The
cycle counts of a crucible have grown before a read (free values, log entry 1). R34, R35, R36: writes of a value of two or four words. An
accepted write of a word below the highest goes into the requester's write shadow with its page and changes nothing else, and the shadow
of another value gives way to it. The write of the highest word empties the shadow and writes each word at once by the page it came
through: its own, and those that the shadow holds of the value; a word that none holds keeps its value. A 64-bit write of both words of a
64-bit value writes both and leaves the shadow. Stated for every value whose write does nothing but change its fields, the others being
commands of their own. -/
def Obligations.WideAccesses : Prop :=
  (∀ (s : State) (r : Requester) (w : Win) (o n i : Nat) (p : Page), (n = 2 ∨ n = 4) → 1 ≤ i → i < n → o / 0x1000 % 4 = 0 →
     (∀ j < n, winOf (winBase w + (o + 4 * j)) = some (w, o + 4 * j) ∧ wideOf w (o + 4 * j) = (o, n)) →
     let a := winBase w + o
     let lo := pageAddr w o p
     let hi := pageAddr w (o + 4 * i) p
     let s1 := s.cyclesGo lo.toNat
     let s2 := s.cyclesGo hi.toNat
     let lv (t : State) (j : Nat) : Reg := t.live r (t.own r (a + 4 * j))
     let held := match r with | .hd _ => s.ioHeld | _ => false
     (held = true → exec (.wideLowRead r lo .b4) s = .next s ∧ exec (.wideHighRead r hi .b4) s = .next s) ∧
     (held = false →
       (reads r lo.toNat = true →
         (∃ t, exec (.wideLowRead r lo .b4) s = .next t ∧ t = { s1 with reqs := t.reqs } ∧ (t.req r).out = (lv s1 0).setWidth 64 ∧
           (t.req r).rd = some ⟨a, (List.range (n - 1)).map (fun j => (j + 1, (lv s1 (j + 1), Page.base)))⟩ ∧ (t.req r).wr = (s.req r).wr ∧
           ∀ q, q ≠ r → t.req q = s.req q) ∧
         (n = 2 → ∃ t, exec (.wideLowRead r lo .b8) s = .next t ∧ t = { s1 with reqs := t.reqs } ∧ (t.req r).out = lv s1 1 ++ lv s1 0 ∧
           (t.req r).rd = (s.req r).rd ∧ (t.req r).wr = (s.req r).wr) ∧
         (∃ t, exec (.wideLowRead r lo .b1) s = .next t ∧ (t.req r).out = BitVec.ofNat 64 ((lv s1 0).toNat % 256) ∧ (t.req r).rd = (s.req r).rd)) ∧
       (reads r hi.toNat = true →
         (∀ ws v g, (s.req r).rd = some ⟨a, ws⟩ → tblFind ws i = some (v, g) → ∃ t, exec (.wideHighRead r hi .b4) s = .next t ∧
           t = { s2 with reqs := t.reqs } ∧ (t.req r).out = v.setWidth 64 ∧ (t.req r).rd = some ⟨a, tblDel ws i⟩ ∧ (t.req r).wr = (s.req r).wr) ∧
         ((s.req r).rd.all (fun sh => sh.base != a || (tblFind sh.words i).isNone) = true → ∃ t, exec (.wideHighRead r hi .b4) s = .next t ∧
           t = { s2 with reqs := t.reqs } ∧ (t.req r).out = (lv s2 i).setWidth 64 ∧ (t.req r).rd = (s.req r).rd)) ∧
       (∀ z : BitVec 32, hostOwn r z.toNat = false → (reads r z.toNat = false ∨ z.toNat % 4 ≠ 0) →
         ∃ t, exec (.wideLowRead r z .b4) s = .next t ∧ (t.req r).out = 0 ∧ (t.req r).rd = (s.req r).rd))) ∧
  (∀ (s : State) (r : Requester) (w : Win) (o n j : Nat) (p p2 : Page) (d d2 : Reg), (n = 2 ∨ n = 4) → j + 1 < n → o / 0x1000 % 4 = 0 →
     (∀ i < n, winOf (winBase w + (o + 4 * i)) = some (w, o + 4 * i) ∧ wideOf w (o + 4 * i) = (o, n) ∧ s.accepts r w (o + 4 * i) = true) →
     (∃ i < n, writableWord w (o + 4 * i) = true) →
     let a := winBase w + o
     let top := n - 1
     let low := exec (.wideLowWrite r (pageAddr w (o + 4 * j) p) .b4 (d.setWidth 64)) s
     let high := exec (.wideHighWrite r (pageAddr w (o + 4 * top) p2) .b4 (d2.setWidth 64)) s
     (∃ t ws, low = .next t ∧ t = { s with reqs := t.reqs } ∧ (t.req r).wr = some ⟨a, ws⟩ ∧ tblFind ws j = some (d, p) ∧
       (∀ i, i ≠ j → tblFind ws i = (s.req r).wr.bind (fun sh => if sh.base = a then tblFind sh.words i else none)) ∧
       (t.req r).rd = (s.req r).rd ∧ ∀ q, q ≠ r → t.req q = s.req q) ∧
     (s.plainWide w o →
       (∀ e, (s.req r).wr = some ⟨a, [(j, (e, p))]⟩ → ∃ t, high = .next t ∧ (t.req r).wr = none ∧
         t = { (s.putRw (a + 4 * j) p e).putRw (a + 4 * top) p2 d2 with reqs := t.reqs }) ∧
       ((s.req r).wr.all (fun sh => sh.base != a) = true → high = .next (s.putRw (a + 4 * top) p2 d2)) ∧
       (n = 2 → exec (.wideLowWrite r (pageAddr w o p) .b8 (d2 ++ d)) s = .next ((s.putRw a p d).putRw (a + 4) p d2))) ∧
     (∀ b, (kindAt b).rwc = 0 → (kindAt b).rw ≠ 0 → s.putRw b p d = s.setReg b (pageOp p (s.reg b) d (kindAt b).rw)))

/-- Drawn from R141, R195, R197, R362, R365, Table 6.2: DEVICE accesses. On a control core a load returns what a register read of the
core returns and a store is a register write of the core; an access of a keystone that performs nothing more waits; an address of 2^32 or
more and a misaligned one trap. A crucible reads its own window, and traps beyond it; its profile has no DEVICE store. R581, R582: the
instructions of a TAP at an occupied site while TRST_N is high, and TRST_N itself. BYPASS and SAMPLE_PRELOAD change nothing but the TAP,
EXTEST also takes the pins; IDCODE returns the manufacturer code (the other fields are free values); REGACC is a register access of the
test port. While TRST_N is low, and at a site that no die occupies, an instruction changes nothing. -/
def Obligations.DevicesAndTestPorts : Prop :=
  ((∀ (s : State) (e c : Fin 4) (f : FmtC), s.canRun (.core e c) f.g {} → f.rsv = 0 →
     let u := MUnit.core e c
     let x := coreIx e c
     let pc := (s.mki u).pc
     let a := s.addrOf u f
     let s1 := s.wake u
     let go (ld st : Instr) (sz : AccSize) (len : Nat) : Prop :=
       (a < 2 ^ 32 → a % len = 0 → s.devStuck a = none →
         exec ld s = .next ((s1.regRead (.core e c) a sz).2.modMki u (fun m =>
           { m.setS f.d.toNat (s1.regRead (.core e c) a sz).1 with pc := m.pc + 8 })) ∧
         exec st s = .next ((s.afterPc u (pc + 8)).regWrite (.core e c) a sz (s.sOf u f.d))) ∧
       (∀ k, a < 2 ^ 32 → a % len = 0 → s.devStuck a = some k → ∀ i ∈ [ld, st], ∃ t, exec i s = .next t ∧
         t.mki u = { s.mki u with pc := pc + 8 } ∧ (∃ q, (t.core x).wait = .dev q s.tags) ∧
         ∃ y ∈ t.outst, y.aid = aidCore x ∧ y.home = k ∧ y.tag = s.tags ∧ y.dev = true) ∧
       (2 ^ 32 ≤ a → ∀ i ∈ [ld, st], exec i s = .next (s1.coreTrap x pc tRange (a % 2 ^ 41))) ∧
       (a < 2 ^ 32 → a % len ≠ 0 → ∀ i ∈ [ld, st], exec i s = .next (s1.coreTrap x pc tMisaligned a))
     go (.ldwd u f) (.stwd u f) .b4 4 ∧ go (.lddd u f) (.stdd u f) .b8 8) ∧
   (∀ (s : State) (n : Fin 72) (f : FmtC), s.xqReady n f.g ⟨[f.base, f.idx, f.d], []⟩ → f.rsv = 0 →
     let u := MUnit.cru n
     let m := s.mki u
     let a := s.addrOf u f
     let go (i : Instr) (len o : Nat) (value : Word) : Prop :=
       (a < 2 ^ 32 → a % len = 0 → reads (.cru n) a = true → ∃ t v, exec i s = .next t ∧
         t.mki u = { m.setS f.d.toNat v with pc := m.pc + 8 } ∧ (t.cru n.val).xq = [] ∧
         (a = aCr n.val o → hasCru s.build n.val = true → (s.cru n.val).st ≠ .retired → v = value)) ∧
       (2 ^ 32 ≤ a → ∃ t, exec i s = .next t ∧ s.trappedXq t n tRange (a % 2 ^ 41)) ∧
       (a < 2 ^ 32 → a % len ≠ 0 → ∃ t, exec i s = .next t ∧ s.trappedXq t n tMisaligned a) ∧
       (a < 2 ^ 32 → a % len = 0 → reads (.cru n) a = false → ∃ t, exec i s = .next t ∧ s.trappedXq t n tDevice a)
     go (.ldwd u f) 4 0x20 ((s.reg a).setWidth 64) ∧ go (.lddd u f) 8 0x18 (BitVec.ofNat 64 (s.reg64 a))) ∧
   (∀ (s : State) (n : Fin 72) (f : FmtC), s.canDispatch (.cru n) f.g {} → f.rsv = 0 → ∀ i ∈ [Instr.stwd (.cru n) f, .stdd (.cru n) f],
     exec i s = .next (s.cruTrap n.val .seq tProfile (s.mki (.cru n)).pc 0))) ∧
  ((∀ (s : State) (x : Fin 100), hasSite s.build x.val = true → s.trstLow = false →
     let tap (i : TapIr) : State := { s with taps := tblSet s.taps x.val i }
     exec (.bypass x) s = .next (tap .bypass) ∧ exec (.samplePreload x) s = .next (tap .sample) ∧ exec (.extest x) s = .next { tap .extest with pinsTaken := true } ∧
     (∃ t, exec (.idcode x) s = .next t ∧ tblFind t.taps x.val = some .idcode ∧ (t.req .test).out.toNat % 2 ^ 12 = 0x5D3 * 2 + 1 ∧
       t = { tap .idcode with reqs := t.reqs, free := s.free + 1 }) ∧
     (∀ a sz d, exec (.regacc x true a sz d) s = .next ((tap .regacc).regWrite .test a.toNat sz d)) ∧
     (∀ a sz d, exec (.regacc x false a sz d) s = .next ((tap .regacc).readOut .test a.toNat sz))) ∧
   (∀ (s : State) (x : Fin 100), hasSite s.build x.val = false ∨ s.trstLow = true →
     ∀ i ∈ [Instr.bypass x, .samplePreload x, .extest x, .idcode x], exec i s = .next s) ∧
   (∀ (s : State) (x : Fin 100) (wr : Bool) a sz d, hasSite s.build x.val = false ∨ s.trstLow = true → exec (.regacc x wr a sz d) s = .next s) ∧
   (∀ s : State, exec .trstN s = .next { s with taps := s.taps.map (fun e => (e.1, TapIr.reset)), trstLow := true, pinsTaken := false } ∧
     exec .trstNRelease s = .next { s with trstLow := false }))

/-! ## Time and courses -/

/-- Drawn from Table 3.2, R49, R53, R54, R56 to R58: what a frame edge outside holdover does to calendar time. An edge within half a
period of its prediction is the last edge from then on, one outside counts as GLITCH; clean edges one after another give FRAME_LOCK at 64
(the opening edge counts as the first, the model's reading, log entry 35); where no message came by the edge, calendar time moves by one
period and the correction in progress; a message that came by the edge sets it the first time, and from then on a small error becomes a
slew of 8000 edges; a later one waits for the next edge. R61 to R66: a missed edge puts a running timebase into holdover, from which it
goes on with generated edges one period apart; before the first course it only loses lock; real edges in holdover are counted toward a
re-lock, which arms at 64 clean ones; a boundary edge of an armed re-lock waits for the real edge; the real edge that comes then ends
holdover, and its absence abandons the re-lock. -/
def Obligations.FrameEdgesAndHoldover : Prop :=
  (∀ (s : State) (t : Nat), s.tb.now ≤ t → s.pinsLive = true → s.fld (aCo 0) 1 1 = 0 → s.tb.holdover = false →
     let b := s.tb
     let p := s.period
     let inWin : Bool := b.lost || b.lastEdge.all (fun e => decide (2 * (max t (e + p) - min t (e + p)) ≤ p))
     (inWin = false → exec (.frameEdge t) s = .next { s with tb := { b with glitch := min (b.glitch + 1) 65535, now := t } }) ∧
     (inWin = true → ∃ u, exec (.frameEdge t) s = .next u ∧ u.tb.lastEdge = some t ∧ u.tb.lost = false ∧ u.tb.now = t ∧
       u.tb.tagged = b.tagged.filter (fun m => t < m.1) ∧
       (∀ e, b.lost = false → b.lastEdge = some e → e ≤ t → 100 * (max (t - e) p - min (t - e) p) ≤ p →
         u.tb.clean = b.clean + 1 ∧ u.tb.frameLock = (b.frameLock || 64 ≤ b.clean + 1)) ∧
       ((∀ m ∈ b.tagged, t < m.1) → u.tb.edgeTime = b.edgeTime + (edgeAdvance p b.corr).1) ∧
       (∀ a m, b.tagged = [(a, m)] → a ≤ t → b.timeValid = false → u.tb.edgeTime = m ∧ u.tb.timeValid = true ∧ u.tb.corr = .none) ∧
       (∀ a m, b.tagged = [(a, m)] → a ≤ t → b.timeValid = true → b.corr = .none →
         let e : Int := (m : Int) - ((b.edgeTime + p : Nat) : Int)
         e.natAbs ≤ s.fld (aCo 0x30) 0 20 →
         u.tb.edgeTime = b.edgeTime + p ∧ u.tb.corr = .slew 8000 (e.tdiv 8000) (e - 8000 * e.tdiv 8000)))) ∧
  (∀ (s : State) (e : Nat), s.tb.lastEdge = some e →
     let b := s.tb
     let p := s.period
     (b.holdover = false → b.lost = false → s.coursesRun = true →
       ∃ u, exec .frameEdgeMissed s = .next u ∧ u.tb.holdover = true ∧ u.tb.frameLock = false ∧ u.tb.armed = false ∧
         u.tb.lastEdge = some (e + p)) ∧
     (b.holdover = false → b.lost = false → s.coursesRun = false → exec .frameEdgeMissed s =
       .next { s with tb := { b with frameLock := false, clean := 0, lost := true, now := max b.now (e + p + p / 2) } }) ∧
     (b.holdover = true → b.genPassed = none → b.armed = false →
       ∃ u, exec .generatedEdge s = .next u ∧ u.tb.lastEdge = some (e + p) ∧ u.tb.holdover = true ∧ u.tb.armed = false) ∧
     (b.holdover = true → b.genPassed = none → b.armed = true → s.lastFrame = true → exec .generatedEdge s =
       .next { s with tb := { b with now := max b.now (e + p), genPassed := some (b.edgeTime + (edgeAdvance p b.corr).1) } }) ∧
     (b.holdover = true → b.armed = true → b.genPassed.isSome = true →
       ∃ u, exec .relockAbandon s = .next u ∧ u.tb.armed = false ∧ u.tb.genPassed = none ∧ u.tb.holdover = true ∧
         u.tb.lastEdge = some (e + p) ∧ u.tb.relockClean = 0) ∧
     (∀ t r, b.now ≤ t → s.pinsLive = true → s.fld (aCo 0) 1 1 = 0 → b.holdover = true → b.lastReal = some r → r ≤ t →
       100 * (max (t - r) p - min (t - r) p) ≤ p →
       (b.armed = false → exec (.frameEdge t) s =
         .next { s with tb := { b with relocking := true, lastReal := some t, now := t, relockClean := b.relockClean + 1,
                                       armed := 64 ≤ b.relockClean + 1 } }) ∧
       (b.armed = true → b.genPassed.isSome = true → e ≤ t → ∃ u, exec (.frameEdge t) s = .next u ∧ u.tb.holdover = false ∧
         u.tb.frameLock = true ∧ u.tb.lastEdge = some t ∧ u.tb.genPassed = none ∧
         ((∀ m ∈ b.tagged, t < m.1) → u.tb.edgeTime = b.edgeTime + (t - e)))))

/-- Drawn from R53 to R55, Table 3.2: a valid TOD_IN message waits to tag the next frame edge, and ends TOD_MISSING; one with a wrong CRC
or a field out of range is counted; after 3 s without one TOD_MISSING is set; a half-rate correction ends with record 0x0012 once the
error is gone. R58, R59, R60, R66, R568: CO_CTRL. A control core of the active quoin sets ENABLE, with the course length then in effect;
with FREE_START set as well the set starts in holdover at once; once started ENABLE stays 1; HOLD_FORCE set while courses run forces
holdover, and cleared it restarts the count of clean edges. Another quoin's core changes nothing. -/
def Obligations.TimeMessagesAndControl : Prop :=
  (∀ (s : State),
     let b := s.tb
     (∀ bytes t, b.now ≤ t → s.pinsLive = true → bytes.getD 0 0 = 0x5A → bytes.getD 1 0 = 1 → todValid bytes = true →
       ∃ u, exec (.todMessage bytes t) s = .next u ∧
         u.tb = { b with now := t, tagged := b.tagged ++ [(t, todTime bytes)], lastTod := t, todMissing := false }) ∧
     (∀ bytes t, b.now ≤ t → s.pinsLive = true → bytes.getD 0 0 = 0x5A → bytes.getD 1 0 = 1 → todValid bytes = false →
       exec (.todMessage bytes t) s = .next { s with tb := { b with now := t, todErr := min (b.todErr + 1) 65535 } }) ∧
     (∃ u, exec .todMissing s = .next u ∧ u.tb.todMissing = true ∧ b.lastTod + 3 * 10 ^ 9 ≤ u.tb.now ∧ u.tb.course = b.course) ∧
     (b.corr = .halfRate 0 → ∃ u, exec .halfRateEnd s = .next u ∧ u.tb = { b with corr := .none } ∧
       (s.ml.frozen = false → s.ml.last = none → u.ml.written = s.ml.written + 1 ∧
         (tblFind u.ml.ring (s.ml.written % 4096)).map (·.code) = some 0x0012))) ∧
  (∀ (s : State) (e c : Fin 4) (p : Page) (d : Reg),
     let r := Requester.core e c
     let old := s.reg (aCo 0)
     let v := pageWrite p old d 7
     (e.val ≠ s.active → exec (.timebaseEnable r p d) s = .next s ∧ exec (.freeStart r p d) s = .next s ∧ exec (.holdForce r p d) s = .next s) ∧
     (e.val = s.active → s.tb.starting = false → s.tb.running = false → old.getLsbD 0 = false → v.getLsbD 0 = true →
       (v.getLsbD 2 = false → v.getLsbD 1 = old.getLsbD 1 → ∃ u, exec (.timebaseEnable r p d) s = .next u ∧ u.reg (aCo 0) = v ∧
         u.tb = { s.tb with starting := true, curN := s.divN, nextN := s.divN }) ∧
       (v.getLsbD 2 = true → v.getLsbD 1 = old.getLsbD 1 → ∃ u, exec (.freeStart r p d) s = .next u ∧ u.reg (aCo 0) = v ∧ u.tb.starting = true ∧
         u.tb.freeRun = true ∧ u.tb.holdover = true ∧ u.tb.frame = 0 ∧ u.tb.curN = s.divN ∧ u.tb.lastEdge = some s.tb.now)) ∧
     (e.val = s.active → (s.tb.starting || s.tb.running) = true →
       (v.getLsbD 1 = old.getLsbD 1 → exec (.timebaseEnable r p d) s = .next (s.setReg (aCo 0) (v ||| 1)))) ∧
     (e.val = s.active → s.tb.running = true → s.tb.holdover = false → old.getLsbD 1 = false → v.getLsbD 1 = true →
       ∃ u, exec (.holdForce r p d) s = .next u ∧ u.tb.holdover = true ∧ u.tb.frameLock = false ∧ u.tb.running = true) ∧
     (e.val = s.active → s.tb.running = true → old.getLsbD 1 = true → v.getLsbD 1 = false →
       exec (.holdForce r p d) s = .next { s.setReg (aCo 0) (v ||| 1) with tb := { s.tb with relockClean := 0, lastReal := none } }))

/-- Drawn from R51, R67, Table 3.3: at a boundary edge the boundary step counts the next course modulo 2^48 (at the first boundary of the
timebase its course number), gives it its boundary time with a pending forward step in it, and leaves courses running with the course
just ended judged; without a boundary edge, and while a chip reset has begun, nothing happens; with the heartbeat lost and no quoin to
take over (R520) a chip reset begins in its place, as CHIP_RESET begins it. R230, R231, R234, R365, R495, R511, R520, R528: what step 4
and step 5 of a boundary that is due decide, each as its own command: an access of a host domain not completed for DEAD_COURSES
boundaries is declared dead, its keystone stops and its requester gets its end; a charge that has not ended by its deadline boundary is
MISSED and its crucible aborted, or extended where it is excused, or left PENDING where its crucible is FAILED; the last clean course
ends chill; a written HANDOVER with a warm dormant quoin decides a takeover; a lost heartbeat with none decides the chip reset of the
next boundary; a freeze that reaches its limit ends. Where no boundary is due, and where nothing is to be decided, each of them changes
nothing. -/
def Obligations.CourseBoundarySteps : Prop :=
  (∀ (s : State),
     (s.tb.due = true → s.inReset = false → s.fc.hbLost = false → ∃ t, exec .courseBoundary s = .next t ∧
       t.tb.course = (s.tb.firstDue.getD (s.tb.course + 1)) % 2 ^ 48 ∧ t.tb.boundaryTime = s.tb.dueTime + s.tb.fwdStep.getD 0 ∧
       t.tb.edgeTime = s.tb.edgeTime + s.tb.fwdStep.getD 0 ∧ t.tb.running = true ∧ t.tb.firstDue = none ∧ t.tb.fwdStep = none ∧
       t.tb.unjudged = false) ∧
     (s.tb.due = false ∨ s.inReset = true → exec .courseBoundary s = .next s) ∧
     (s.tb.due = true → s.inReset = false → s.fc.hbLost = true →
       ∃ t, exec .courseBoundary s = .next t ∧ exec (.chipReset .noWarmQuoin) s = .next t)) ∧
  ((∀ (s : State) (p slot : Fin 4096), s.tb.due = false ∨ s.inReset = true →
     ∀ i ∈ [Instr.accessDeadDeclare, .chargeDeadline p slot, .chillEnd, .takeoverDecision, .heartbeatLost, .autoThaw], exec i s = .next s) ∧
   ∀ (s : State), s.tb.due = true → s.inReset = false →
     ((∀ a ∈ s.outst, a.age + 1 < s.deadCourses) → exec .accessDeadDeclare s = .next s) ∧
     (∀ a, s.outst = [a] → s.deadCourses ≤ a.age + 1 → isHostAid a.aid = true → ∃ t, exec .accessDeadDeclare s = .next t ∧
       (t.ks a.home).stopped = true ∧ t.ksOut = s.ksOut ∧
       { kind := if a.store then .cmp else .dataC, aid := a.aid, home := a.home, line := a.line, tag := a.tag, poison := !a.store } ∈ t.net) ∧
     (∀ (p slot : Fin 4096) c, s.takeover = none → s.fld 0x20000 0 1 = 1 → s.charge p.val slot.val = some c → c.outcome = 0 → c.run = .started →
       let extends' := (c.attempt ≠ 0 ∨ c.excused = true) ∧ c.ext < 2 ∧ s.course < c.bound + 2
       (s.course < c.deadline → exec (.chargeDeadline p slot) s = .next s) ∧
       (c.deadline ≤ s.course →
         (extends' → ∃ t, exec (.chargeDeadline p slot) s = .next t ∧
           t.charge p.val slot.val = some { c with ext := c.ext + 1, deadline := s.course + 1 }) ∧
         (¬extends' → (s.cru c.cruc).st = .failed → exec (.chargeDeadline p slot) s = .next s) ∧
         (¬extends' → (s.cru c.cruc).st ≠ .failed → ∃ t, exec (.chargeDeadline p slot) s = .next t ∧
           t.charge p.val slot.val = some { c with run := .missed } ∧
           ((s.cru c.cruc).charge = some (p.val, slot.val) → (s.cru c.cruc).st = .running → (s.cru c.cruc).trap = none →
             (s.cru c.cruc).standbyBusy = false →
             (t.cru c.cruc).st = .stopping ∧ (t.cru c.cruc).stopBy = .abort ∧ (t.cru c.cruc).charge = none)))) ∧
     (s.fc.chill = true → s.fc.cleanLeft = 1 → s.fc.dirtyCourse = false → s.fc.warn = false → s.fc.therm = false →
       ∃ t, exec .chillEnd s = .next t ∧ t.fc = { s.fc with chill := false, cleanLeft := 0 }) ∧
     (s.fc.chill = false ∨ s.fc.cleanLeft ≠ 1 ∨ s.fc.dirtyCourse = true ∨ s.fc.warn = true ∨ s.fc.therm = true → exec .chillEnd s = .next s) ∧
     (∀ e, s.takeover = none → s.takeLate = none → (s.quoin s.active).handover = true → s.beatsCount.successor = some e →
       ∃ t, exec .takeoverDecision s = .next t ∧ t.takeLate = some e ∧ t.takeover = none ∧ t.active = s.active) ∧
     (s.takeover = none → s.takeLate = none → s.beatsCount.successor = none → exec .takeoverDecision s = .next s) ∧
     (s.takeover = none → s.takeLate = none → s.fc.hbLost = false → s.fc.hbLate = false → s.tb.unjudged = false → hasE s.build s.active = true →
       s.active < 4 → s.beatsCount.successor = none → (s.quoin s.active).beats ≠ 0xF → s.missLimit ≤ (s.quoin s.active).missRun + 1 →
       ∃ t, exec .heartbeatLost s = .next t ∧ t.fc.hbLate = true ∧ t.fc.hbLost = false ∧ t.takeLate = none) ∧
     (∀ e, s.beatsCount.successor = some e → s.fc.hbLost = false → s.fc.hbLate = false → exec .heartbeatLost s = .next s) ∧
     (s.ml.frozen = true → s.freezeLimit ≤ s.ml.frozenCourses + 1 → ∃ t, exec .autoThaw s = .next t ∧ t.ml.frozen = false ∧ t.ml.closed = true ∧
       (s.ml.missed ≠ 0 → s.ml.heldClear = false → (tblFind t.ml.ring (s.ml.written % 4096)).map (fun r => (r.code, r.p0)) =
         some (2, s.ml.missed % 2 ^ 32))) ∧
     (s.ml.frozen = false ∨ s.ml.frozenCourses + 1 < s.freezeLimit → exec .autoThaw s = .next s))

/-! ## Crucibles and pours -/

/-- Drawn from Table 4.5, R89 to R92, R134: each command of a crucible is the write of its code to CR_CTRL. From another requester than a
control core of the active quoin, in a reset and to a crucible absent or RETIRED it changes nothing. While a trap is being recorded it is
held, as is an accepted one while the flush of a STANDBY runs; in a state that Table 4.5 does not list it is rejected and counted;
otherwise it takes the crucible to the state of the table: START with the registers of R134, RESUME at CR_PC, ABORT, RESET and RETIRE
with everything queued discarded, and from FAILED with the crucible declared dead. -/
def Obligations.CrucibleCommands : Prop :=
  ∀ (s : State) (r : Requester) (n : Fin 72),
    let q := s.cru n.val
    let cmds : List (Instr × CruCmd) := [(.start r n, .start), (.stop r n, .stop), (.resume r n, .resume), (.abort r n, .abort), (.reset r n, .reset),
      (.standby r n, .standby), (.wake r n, .wake), (.retire r n, .retire)]
    let fw := s.isFw r = true ∧ hasCru s.build n.val = true ∧ s.inReset = false ∧ q.st ≠ .retired
    let held := q.trap.isSome = true ∧ (q.st = .running ∨ q.st = .stopping)
    let hold (c : CruCmd) : State := s.modCru n.val (fun x => { x with held := x.held ++ [c] })
    let empty (t : State) : Prop :=
      (t.cru n.val).mq0 = [] ∧ (t.cru n.val).mq1 = [] ∧ (t.cru n.val).vq = [] ∧ (t.cru n.val).xq = [] ∧ (t.cru n.val).trap = none ∧
      (t.cru n.val).mki = q.mki
    (s.accepts r (.cr n.val) 4 = true → ∀ i < 8, ∀ x, cmds[i]? = some x → ∃ t, exec x.1 s = .next t ∧
      exec (.registerWrite r (BitVec.ofNat 32 (aCr n.val 4)) .b4 (BitVec.ofNat 64 (i + 1))) s = .next t) ∧
    (¬fw → ∀ x ∈ cmds, exec x.1 s = .next s) ∧
    (fw → held → ∀ x ∈ cmds, exec x.1 s = .next (hold x.2)) ∧
    (fw → ¬held → ∀ x ∈ cmds, x.2.accepted q.st = false → ∃ t, exec x.1 s = .next t ∧
      t.fld (aCr n.val 0x4C) 0 16 = min 0xFFFF (s.fld (aCr n.val 0x4C) 0 16 + 1) ∧ t = { s with regs := t.regs } ∧
      ∀ a, a ≠ aCr n.val 0x4C → t.reg a = s.reg a) ∧
    (fw → ¬held → q.standbyBusy = true → ∀ x ∈ cmds, x.2.accepted q.st = true → exec x.1 s = .next (hold x.2)) ∧
    (fw → ¬held → q.standbyBusy = false →
      (q.st = .idle → ∃ t, exec (.start r n) s = .next t ∧
        t.cru n.val = { q.fresh (s.reg64 (aCr n.val 0x10) / 64 * 64 % 2 ^ 41) (s.fld (aCr n.val 0x20) 0 16)
                          (BitVec.ofNat 64 (s.reg64 (aCr n.val 0x18))) with st := .running } ∧
        (t.cru n.val).mki.sreg 1 = BitVec.ofNat 64 (s.reg64 (aCr n.val 0x18)) ∧ (∀ k, k ≠ 1 → (t.cru n.val).mki.sreg k = 0) ∧
        (∀ k, (t.cru n.val).mki.preg k = 0 ∧ (t.cru n.val).vreg k = 0) ∧
        (∀ m, m ≠ n.val → t.cru m = s.cru m) ∧ t.mould = s.mould) ∧
      (q.st = .running → ∃ t, exec (.stop r n) s = .next t ∧ (t.cru n.val).st = .stopping ∧ (t.cru n.val).stopBy = .stop ∧
        (t.cru n.val).mki = q.mki ∧ (t.cru n.val).resv = none ∧ (t.cru n.val).xq = q.xq) ∧
      (q.st = .halted → ∃ t, exec (.resume r n) s = .next t ∧ (t.cru n.val).st = .running ∧
        (t.cru n.val).mki = { q.mki with pc := s.reg64 (aCr n.val 0x28) }) ∧
      (q.st = .running ∨ (q.st = .stopping ∧ q.stopBy ≠ .abort) ∨ q.st = .halted ∨ q.st = .trapped → ∃ t, exec (.abort r n) s = .next t ∧
        (t.cru n.val).st = .stopping ∧ (t.cru n.val).stopBy = .abort ∧ empty t) ∧
      (q.st = .stopping → q.stopBy = .abort → exec (.abort r n) s = .next s) ∧
      (q.st = .idle ∨ q.st = .standby ∨ q.st = .running ∨ q.st = .halted ∨ q.st = .trapped ∨ q.st = .failed →
        ∃ t, exec (.reset r n) s = .next t ∧ (t.cru n.val).st = .resetting ∧ empty t ∧ (q.st = .failed → n.val ∈ t.dead)) ∧
      (q.st = .idle → ∃ t, exec (.standby r n) s = .next t ∧ (t.cru n.val).st = .standby ∧ (t.cru n.val).standbyBusy = true) ∧
      (q.st = .standby → ∃ t, exec (.wake r n) s = .next t ∧ t.cru n.val = { q with st := .idle, aclkOn := true }) ∧
      (q.st = .idle ∨ q.st = .standby ∨ q.st = .running ∨ q.st = .stopping ∨ q.st = .halted ∨ q.st = .trapped →
        ∃ t, exec (.retire r n) s = .next t ∧ (t.cru n.val).st = .retiring ∧ empty t) ∧
      (q.st = .failed ∨ q.st = .resetting → ∃ t, exec (.retire r n) s = .next t ∧ (t.cru n.val).st = .retired ∧ n.val ∈ t.dead ∧ empty t)) ∧
    (∀ st, (CruCmd.accepted .start st = true ↔ st = .idle) ∧ (CruCmd.accepted .stop st = true ↔ st = .running) ∧
      (CruCmd.accepted .resume st = true ↔ st = .halted) ∧
      (CruCmd.accepted .abort st = true ↔ st = .running ∨ st = .stopping ∨ st = .halted ∨ st = .trapped) ∧
      (CruCmd.accepted .reset st = true ↔ st = .idle ∨ st = .standby ∨ st = .running ∨ st = .halted ∨ st = .trapped ∨ st = .failed) ∧
      (CruCmd.accepted .standby st = true ↔ st = .idle) ∧ (CruCmd.accepted .wake st = true ↔ st = .standby) ∧
      (CruCmd.accepted .retire st = true ↔ st = .idle ∨ st = .standby ∨ st = .running ∨ st = .stopping ∨ st = .halted ∨ st = .trapped ∨
        st = .resetting ∨ st = .failed))

/-- Drawn from R92, R93, R95, R96, R98, R99, R151, R338, R368: how a crucible's state goes on by itself: a STOP ends HALTED with CR_PC,
or TRAPPED where an operation trapped; an ABORT ends IDLE; a block reset ends IDLE with a mould of zeros, or from FAILED in self-test;
the flush of STANDBY ends and ACLK stops; RETIRING ends RETIRED; the self-test ends IDLE or FAILED with its result; a failure from any
state but FAILED and RETIRED (R93; RETIRED the model's choice, log entry 94) is reported to the pour engine, and a BLK reaction may
follow with a RESET; a trap whose started operations have completed is recorded. Where the crucible is not in the state that goes on,
nothing changes. R228, R229, R232, R235: an idle crucible starts the next charge of its queue, with the pour's ENTRY, FLASK and the
charge record's address; a charge is done once the flush that follows its END has ended; the engine acts on a reported failure: an active
crucible leaves its role, and charges of the next two boundaries are excused. A crucible that is not idle, or has a charge, starts none;
one without a charge ends none; without a report there is no failover. -/
def Obligations.CrucibleTransitionsAndCharges : Prop :=
  (∀ (s : State) (n : Fin 72),
     let q := s.cru n.val
     let b := n.val * 2 ^ 23
     let recorded (t : State) (x : TrapInfo) : Prop :=
       (t.cru n.val).st = .trapped ∧ (t.cru n.val).trap = none ∧ t.reg (aCr n.val 0x24) = BitVec.ofNat 32 (256 * x.queue + x.code) ∧
       t.reg64 (aCr n.val 0x28) = x.pc / 8 * 8 % 2 ^ 41 ∧ t.reg64 (aCr n.val 0x30) = x.addr % 2 ^ 41
     let wiped (t : State) : Prop :=
       (∀ a, b ≤ a → a < b + 2 ^ 23 → memGet t.mould a = 0) ∧ (∀ a, ¬(b ≤ a ∧ a < b + 2 ^ 23) → memGet t.mould a = memGet s.mould a) ∧
       t.reg64 (aCr n.val 0x28) = 0 ∧ t.reg (aCr n.val 0x24) = 0
     (q.st = .stopping → q.stopBy = .stop → s.cruQuiet n.val = true → q.trap = none → ∃ t, exec (.stopComplete n) s = .next t ∧
       t.cru n.val = { q with st := .halted, stopBy := .none } ∧ t.reg64 (aCr n.val 0x28) = q.mki.pc / 8 * 8 % 2 ^ 41) ∧
     (∀ x, q.st = .stopping → q.stopBy = .stop → s.cruQuiet n.val = true → q.trap = some x → q.held = [] → q.charge = none →
       ∃ t, exec (.stopComplete n) s = .next t ∧ recorded t x) ∧
     (q.st ≠ .stopping ∨ q.stopBy ≠ .stop ∨ s.cruQuiet n.val = false → exec (.stopComplete n) s = .next s) ∧
     (q.st = .stopping → q.stopBy = .abort → s.storesDone n.val = true → ∃ t, exec (.abortComplete n) s = .next t ∧
       t.cru n.val = { q with st := .idle, stopBy := .none, charge := none }) ∧
     (q.st ≠ .stopping ∨ q.stopBy ≠ .abort ∨ s.storesDone n.val = false → exec (.abortComplete n) s = .next s) ∧
     (q.st = .resetting → q.stopBy = .invalidate → q.cst ≠ .invalidating → q.cst ≠ .draining → ∃ t, exec (.resetComplete n) s = .next t ∧
       (t.cru n.val).st = .idle ∧ (t.cru n.val).stopBy = .none ∧ wiped t) ∧
     (q.st = .resetting → q.stopBy = .invalidateFailed → q.cst ≠ .invalidating → q.cst ≠ .draining → ∃ t, exec (.resetComplete n) s = .next t ∧
       (t.cru n.val).st = .selftest ∧ t.reg (aCr n.val 0x50) = 0 ∧ wiped t) ∧
     (q.st = .idle → exec (.resetComplete n) s = .next s) ∧
     (q.st = .standby → q.standbyBusy = true → q.cache = [] → q.wb = [] → q.range = none → q.held = [] →
       exec (.standbyComplete n) s = .next (s.setCru n.val { q with standbyBusy := false, aclkOn := false })) ∧
     (q.st ≠ .standby ∨ q.standbyBusy = false → exec (.standbyComplete n) s = .next s) ∧
     (q.st = .retiring → q.stopBy = .retire → s.storesDone n.val = true → q.cache = [] → q.wb = [] → q.miss = [] → q.range = none →
       ∃ t, exec (.retireComplete n) s = .next t ∧ t.cru n.val = { q with st := .retired, stopBy := .none, aclkOn := false, charge := none }) ∧
     (q.st ≠ .retiring ∨ q.stopBy ≠ .retire ∨ s.storesDone n.val = false → exec (.retireComplete n) s = .next s) ∧
     (q.st = .selftest → ∃ t, exec (.selftestEnd n 0) s = .next t ∧ t.cru n.val = { q with st := .idle, aclkOn := true } ∧
       t.reg (aCr n.val 0x50) = 0xC0000000) ∧
     (∀ part : BitVec 8, part ≠ 0 → q.st = .selftest → s.fc.blkCru = [] → (s.reg (aFt 0x4018)).getLsbD 2 = false →
       ∃ t, exec (.selftestEnd n part) s = .next t ∧ (t.cru n.val).st = .failed ∧
         t.reg (aCr n.val 0x50) = 0x80000000 ||| part.setWidth 32) ∧
     (∀ part, q.st ≠ .selftest → exec (.selftestEnd n part) s = .next s) ∧
     (∀ src, hasCru s.build n.val = true → q.st ≠ .retired → q.st ≠ .failed → s.inReset = false → s.fc.blkCru = [] →
       (s.reg (aFt (0x4000 + 4 * (failSrc src).val))).getLsbD 2 = false →
       ∃ t, exec (.crucibleFail n src) s = .next t ∧ (t.cru n.val).st = .failed ∧ (t.cru n.val).xq = [] ∧ n.val ∈ t.fc.failReports ∧
         (∀ i, src = .tagParity i → i.val ∈ (t.cru n.val).tagBad)) ∧
     (∀ src, hasCru s.build n.val = true → q.st ≠ .retired → q.st ≠ .failed →
       ∃ t, exec (.crucibleFail n src) s = .next t ∧ ((t.cru n.val).st = .failed ∨ (t.cru n.val).st = .resetting)) ∧
     (∀ src, hasCru s.build n.val = false ∨ q.st = .retired ∨ q.st = .failed → exec (.crucibleFail n src) s = .next s) ∧
     (∀ x, q.trap = some x → q.st = .running → s.cruQuiet n.val = true → q.held = [] → q.charge = none → ∃ t, exec (.crucibleTrap n) s = .next t ∧
       recorded t x) ∧
     (q.trap = none ∨ s.cruQuiet n.val = false → exec (.crucibleTrap n) s = .next s)) ∧
  (∀ (s : State) (n : Fin 72),
     let q := s.cru n.val
     (∀ p slot rest x, q.st = .idle → q.charge = none → q.standbyBusy = false → q.work = (p, slot) :: rest → tblFind s.pours p = some x →
       x.area + 64 * slot < 2 ^ 64 → ∃ t, exec (.chargeStart n) s = .next t ∧ (t.cru n.val).st = .running ∧
         (t.cru n.val).charge = some (p, slot) ∧ (t.cru n.val).work = rest ∧ (t.cru n.val).mki.pc = x.entry ∧
         (t.cru n.val).mki.flask = x.flask ∧ (t.cru n.val).mki.s = [(1, BitVec.ofNat 64 (x.area + 64 * slot))]) ∧
     (q.st ≠ .idle ∨ q.charge ≠ none ∨ q.work = [] → exec (.chargeStart n) s = .next s) ∧
     (∀ p slot c k f, q.charge = some (p, slot) → s.charge p slot = some c → c.run = .flushing k false f → (f = true ∨ (q.range = none ∧ q.cache = [] ∧ q.wb = [])) →
       ∃ t, exec (.chargeDone n) s = .next t ∧ (t.cru n.val).charge = none ∧ t.charge p slot = some { c with run := .done k false }) ∧
     (q.charge = none → exec (.chargeDone n) s = .next s) ∧
     (n.val ∈ s.fc.failReports → ∃ t, exec (.failover n) s = .next t ∧ n.val ∉ t.fc.failReports ∧
       (s.role n.val = 1 → t.role n.val = 0 ∧ t.failoverLeft = 2)) ∧
     (n.val ∉ s.fc.failReports → exec (.failover n) s = .next s))

/-! ## Host queues and ladles -/

/-- Drawn from R583, R215, R219, R220, R222, R402, R403, R410, R426, R433: each command of Table 18.2, taken as the next slot of its
queue, moves GT_SQ_HEAD past it and has its effect: STREAM_SET, STREAM_FREE and STREAM_QUERY end with status 0 where their checks pass;
POUR_OPEN enters the lowest free pour with its streams BOUND; POUR_CLOSE waits for the pour's end; FLASK_LOAD asks for its image, or ends
with the number of another domain's flask; FLASK_FREE waits for the boundary; NOP ends; a descriptor that passes its checks joins its
ladle, and one that does not ends with their status; a command on a queue of the wrong kind ends with status 0x21 (R426). A queue that
takes no slot does nothing. -/
def Obligations.CommandsOfQueues : Prop :=
  ∀ (s : State) (q : Fin 2048) (c : CmdArgs),
    let n := (s.hq q.val).sqHead + 1
    let h := q.val / 16
    let lq := s.qLadle q.val
    let i := c.param0.toNat
    (s.consumes q.val = false → exec (.nop q c) s = .next s ∧ exec (.streamSet q c) s = .next s ∧ exec (.streamFree q c) s = .next s ∧
      exec (.streamQuery q c) s = .next s ∧ exec (.pourOpen q c) s = .next s ∧ exec (.pourClose q c) s = .next s ∧
      exec (.pourQuery q c) s = .next s ∧ exec (.flaskLoad q c) s = .next s ∧ exec (.flaskFree q c) s = .next s ∧
      exec (.flaskQuery q c) s = .next s ∧ exec (.ladle q c) s = .next s) ∧
    (s.takesSlot q.val →
    (cmdPlain c 0 → c.param0 = 0 → c.param1 = 0 → c.response = 0 →
      ∃ t, exec (.nop q c) s = .next t ∧ t.slotDone q.val n 0 0 ∧ (t.hq q.val).sqHead = n) ∧
    (c.param0 ≠ 0 → ∃ t, exec (.nop q c) s = .next t ∧ t.slotDone q.val n 0x21 0 ∧ (t.hq q.val).sqHead = n) ∧
    (lq = 15 → i < 2 ^ 18 →
      (cmdPlain c 2 → c.response = 0 → 1 ≤ c.param1.toNat → c.param1.toNat ≤ 65536 →
        let la := (c.payload.getD 0 0).toNat
        let lb := (c.payload.getD 1 0).toNat
        la % 4096 = 0 → lb % 4096 = 0 → la < 2 ^ 41 → lb < 2 ^ 41 → disjoint la lb (64 * c.param1.toNat) = true →
        ((s.stream i).st = .free ∨ (s.stream i).owner = h ∧ (s.stream i).st = .ready) →
        s.holdsRange h la (64 * c.param1.toNat) = true → s.holdsRange h lb (64 * c.param1.toNat) = true →
        ∃ t, exec (.streamSet q c) s = .next t ∧ t.slotDone q.val n 0 0 ∧
          t.stream i = { leafA := la, leafB := lb, owner := h, pour := (s.stream i).pour, st := .ready, size := c.param1.toNat }) ∧
      (cmdPlain c 0 → c.param1 = 0 → c.response = 0 → (s.stream i).st = .ready → (s.stream i).owner = h →
        ∃ t, exec (.streamFree q c) s = .next t ∧ t.slotDone q.val n 0 0 ∧ t.stream i = { s.stream i with st := .free }) ∧
      (cmdPlain c 0 → c.param1 = 0 → (s.stream i).st ≠ .free → (s.stream i).owner = h → s.respCheck h c 64 = 0 →
        ∃ t, exec (.streamQuery q c) s = .next t ∧ t.slotDone q.val n 0 0 ∧ t.streams = s.streams)) ∧
    (∀ p, lq = 15 →
      let x : Pour := { desc := c.payload, owner := h, opened := s.course }
      descOk c.payload = true → c.param0 = 0 → c.param1 = 0 → c.response = 0 → s.freePour = some p →
      (∀ k ∈ x.streams, s.streamCheck h k false false = 0) → s.pourFlaskOk h x = true → s.pourHolds h x = true →
      ceilDiv (ceilDiv x.count x.cadence) x.chargeMax ≤ 256 →
      ∃ t, exec (.pourOpen q c) s = .next t ∧ t.slotDone q.val n 0 (BitVec.ofNat 64 p) ∧ tblFind t.pours p = some x ∧
        ∀ k ∈ x.streams, (t.stream k).st = .bound ∧ (t.stream k).pour = p) ∧
    (∀ x, lq = 15 → cmdPlain c 0 → c.param1 = 0 → i < 4096 → s.pourOf h i = some x →
      (c.response = 0 → ∃ t, exec (.pourClose q c) s = .next t ∧ (tblFind (t.hq q.val).entries n).map (·.st) = some .applied ∧
        tblFind t.pours i = some { x with closed := true, closers := x.closers ++ [(q.val, n)] }) ∧
      (s.respCheck h c 128 = 0 → ∃ t, exec (.pourQuery q c) s = .next t ∧ t.slotDone q.val n 0 0 ∧ t.pours = s.pours)) ∧
    (∀ k, lq = 15 → cmdPlain c 0 → i < 4096 → tblFind s.flasks i = some k →
      (∀ ppa, ppa = c.param1.toNat → ppa < 2 ^ 41 → ppa % 256 = 0 → c.response = 0 → i ≠ 0 → s.grantedRange h ppa 256 = true →
        (k.owner ≠ h → ∃ t, exec (.flaskLoad q c) s = .next t ∧ t.slotDone q.val n 0x22 (packWord [(0, i), (16, 0)])) ∧
        (k.owner = h → (∀ j, j < 4 → (s.homeUp (ppa / 64 + j)).isSome = true) → ∃ t, exec (.flaskLoad q c) s = .next t ∧
          (t.hq q.val).sqHead = n ∧ (tblFind (t.hq q.val).entries n).map (·.st) = some .taken ∧
          ∀ j, j < 4 → (tblFind (t.hq q.val).reads (ppa / 64 + j)).isSome = true ∧ t.sentTo .rdc aidSet (ppa / 64 + j))) ∧
      (c.param1 = 0 → c.response = 0 → k.owner = h → (∀ e ∈ s.pours, e.2.flask ≠ i) → ∃ t, exec (.flaskFree q c) s = .next t ∧
        (tblFind (t.hq q.val).entries n).map (·.st) = some .accepted ∧ t.flaskPend = s.flaskPend ++ [⟨q.val, n, i, none⟩] ∧ t.flasks = s.flasks) ∧
      (c.param1 = 0 → k.owner = h → s.respCheck h c 256 = 0 → ∃ t, exec (.flaskQuery q c) s = .next t ∧ t.slotDone q.val n 0 0 ∧
        t.flasks = s.flasks)) ∧
    (∀ w k, lq < 8 → s.ladleCheck h (q.val / 256 * 8 + lq) c = .ok w → s.servedBy (q.val / 256 * 8 + lq) = some k →
      ∃ t, exec (.ladle q c) s = .next t ∧ (tblFind (t.hq q.val).entries n).map (·.st) = some .accepted ∧
        (t.ladle k).descs = (s.ladle k).descs ++ [{ q := q.val, seq := n, w := w, next := (w.getD 6 0).toNat / 64 }]) ∧
    (∀ k, lq < 8 → s.ladleCheck h (q.val / 256 * 8 + lq) c = .error k → ∃ t, exec (.ladle q c) s = .next t ∧ t.slotDone q.val n k 0) ∧
    (8 ≤ lq → ∃ t, exec (.ladle q c) s = .next t ∧ t.slotDone q.val n 0x21 0) ∧
    (lq < 15 → (∃ t, exec (.streamSet q c) s = .next t ∧ t.slotDone q.val n 0x21 0) ∧ (∃ t, exec (.streamFree q c) s = .next t ∧ t.slotDone q.val n 0x21 0) ∧
      (∃ t, exec (.streamQuery q c) s = .next t ∧ t.slotDone q.val n 0x21 0) ∧ (∃ t, exec (.pourOpen q c) s = .next t ∧ t.slotDone q.val n 0x21 0) ∧
      (∃ t, exec (.pourClose q c) s = .next t ∧ t.slotDone q.val n 0x21 0) ∧ (∃ t, exec (.pourQuery q c) s = .next t ∧ t.slotDone q.val n 0x21 0) ∧
      (∃ t, exec (.flaskLoad q c) s = .next t ∧ t.slotDone q.val n 0x21 0) ∧ (∃ t, exec (.flaskFree q c) s = .next t ∧ t.slotDone q.val n 0x21 0) ∧
      (∃ t, exec (.flaskQuery q c) s = .next t ∧ t.slotDone q.val n 0x21 0)))

/-- Drawn from R425, R427 to R429, R432, R434 to R436: doorbells and consumption. SQ_TAIL moves forward only, and one past the ring stops
the queue; a slot whose SEAL matches is taken, one whose SEAL differs is re-read at the boundaries that follow and stops the queue at the
fourth; the Cmp of the entry's write moves GT_SQ_HEAD; a record is written where the ring has room; CQ_HEAD frees entries. During a hold
of the LD's I/O a doorbell does nothing, and a doorbell of a queue that is DISABLED or DISABLING is counted as ignored. R430, R440, R443
to R445: QUEUE_ENABLE runs a DISABLED queue whose configuration and rings are right, suspends it under an order to its domain, and
refuses one that is not right with CAUSE 3; QUEUE_DISABLE and QUEUE_RESUME act in their states and are ignored in the others; notices go
to the notice ring in order where it is enabled and has room, and NQ_HEAD gives the room back, with an interrupt while notices remain;
GT_NQ_CFG takes a ring's size only while the ring is off. A requester that may not write these registers changes nothing. -/
def Obligations.QueueConsumptionAndControl : Prop :=
  (∀ (s : State) (q : Fin 2048) (v : Word),
     let x := s.hq q.val
     let n := x.sqHead + 1
     let t := v.toNat
     (s.ioHeld = true → exec (.sqTail q v) s = .next s ∧ exec (.cqHead q v) s = .next s) ∧
     (s.ioHeld = false → x.st = .disabled ∨ x.st = .disabling → exec (.sqTail q v) s = .next (s.qIgnore q.val)) ∧
     (s.ioHeld = false → x.st ≠ .disabled → x.st ≠ .disabling →
       (t ≤ x.sqDb → exec (.sqTail q v) s = .next (s.qIgnore q.val)) ∧
       (x.sqDb < t → t ≤ x.sqHead + 2 ^ s.sqLog q.val → exec (.sqTail q v) s = .next (s.modHq q.val (fun x => { x with sqDb := t }))) ∧
       (x.sqDb < t → x.sqHead + 2 ^ s.sqLog q.val < t → ∃ u, exec (.sqTail q v) s = .next u ∧
         u.hq q.val = { x with st := .stopped, cause := 2, retries := 0, reread := false, reads := [] })) ∧
     (s.ioHeld = false → x.cqHead < t → t ≤ x.cqTail → ∃ u, exec (.cqHead q v) s = .next u ∧ (u.hq q.val).cqHead = t ∧
       (u.hq q.val).entries = x.entries.filter (fun e => t < e.1) ∧ (u.hq q.val).armed = decide (x.cqTail ≤ t)) ∧
     (s.ioHeld = false → (t ≤ x.cqHead ∨ x.cqTail < t) → exec (.cqHead q v) s = .next (s.qIgnore q.val)) ∧
     (s.consumes q.val = true → x.retries = 0 → tblFind x.entries n = none →
       (∀ d0 d1, s.ownGot q.val (s.slotLine q.val n + 1) = .ok d1 → s.ownGot q.val (s.slotLine q.val n) = .ok d0 → (lineWord d1 7).toNat = n →
         ∃ u e, exec (.slotConsume q) s = .next u ∧ tblFind (u.hq q.val).entries n = some e ∧ e.st = .taken ∧ e.slot.opcode = lineWord d1 0 ∧
           e.slot.args.param0 = lineWord d1 2 ∧ e.slot.args.payload = (List.range 8).map (lineWord d0) ∧ (u.hq q.val).sqHead = x.sqHead) ∧
       (∀ d1, s.ownGot q.val (s.slotLine q.val n + 1) = .ok d1 → (lineWord d1 7).toNat ≠ n →
         exec (.slotConsume q) s = .next (s.modHq q.val (fun x => { x with retries := 1, torn := min (x.torn + 1) 65535, reads := [] }))) ∧
       (tblFind x.reads (s.slotLine q.val n + 1) = none → (s.homeUp (s.slotLine q.val n + 1)).isSome = true →
         ∃ u, exec (.slotConsume q) s = .next u ∧ u.sentTo .rdc aidSet (s.slotLine q.val n + 1))) ∧
     (∀ d1, x.st = .running → x.retries ≠ 0 → x.reread = true → s.onHold = false →
       s.ownGot q.val (s.slotLine q.val n + 1) = .ok d1 → (lineWord d1 7).toNat ≠ n →
       (x.retries ≠ 4 → exec (.sealReread q) s =
         .next (s.modHq q.val (fun x => { x with retries := x.retries + 1, reread := false, reads := [] }))) ∧
       (x.retries = 4 → ∃ u, exec (.sealReread q) s = .next u ∧ (u.hq q.val).st = .stopped ∧ (u.hq q.val).cause = 1 ∧
         (u.hq q.val).sqHead = x.sqHead)) ∧
     (∀ e, s.onHold = false → tblFind x.entries n = some e → e.st = .taken →
       ∃ u, exec (.slotTaken q) s = .next u ∧ (u.hq q.val).sqHead = n ∧ (tblFind (u.hq q.val).entries n).isSome = true) ∧
     (∀ e, tblFind x.entries (x.cqTail + 1) = some e → e.st = .done → x.cqTail + 1 ≤ x.cqHead + 2 ^ s.cqLog q.val → x.st ≠ .suspended →
       s.onHold = false → ∃ u, exec (.recordWrite q) s = .next u ∧ (u.hq q.val).cqTail = x.cqTail + 1 ∧
         tblFind (u.hq q.val).entries (x.cqTail + 1) = some { e with sqHead := x.sqHead, st := .written } ∧ (u.hq q.val).armed = false)) ∧
  (∀ (s : State) (r : Requester) (q : Fin 2048) (h : Fin 128) (v : Word),
     let x := s.hq q.val
     let sl := s.sqLog q.val
     let cl := s.cqLog q.val
     let rings := (s.qLadle q.val < 8 ∨ s.qLadle q.val = 15) ∧ 4 ≤ sl ∧ sl ≤ 12 ∧ 4 ≤ cl ∧ cl ≤ 12 ∧
       s.grantedRange (q.val / 16) (s.sqBase q.val) (128 * 2 ^ sl) = true ∧ s.grantedRange (q.val / 16) (s.cqBase q.val) (64 * 2 ^ cl) = true
     let d := s.hd h.val
     (s.qWriter r (q.val / 16) = true →
       (x.st = .disabled → rings → (s.hd (q.val / 16)).order = [] →
         exec (.queueEnable r q) s = .next (s.modHq q.val (fun x => { x with sqDb := x.sqHead, st := .running, cause := 0 }))) ∧
       (∀ k, x.st = .disabled → rings → (s.hd (q.val / 16)).order.getLast? = some k → exec (.queueEnable r q) s =
         .next (s.modHq q.val (fun x => { x with sqDb := x.sqHead, st := .suspended, cause := k, backSt := .running, backCause := 0 }))) ∧
       (x.st = .disabled → ¬rings → exec (.queueEnable r q) s = .next (s.modHq q.val (fun x => { x with cause := 3 }))) ∧
       (x.st ≠ .disabled → exec (.queueEnable r q) s = .next (s.qIgnore q.val)) ∧
       (x.st = .running ∨ x.st = .stopped → ∃ t, exec (.queueDisable r q) s = .next t ∧
         (t.hq q.val).entries = x.entries.filter (fun e => e.1 ≤ x.sqHead) ∧
         (t.hq q.val).st = if (t.hq q.val).entries = [] then .disabled else .disabling) ∧
       (x.st = .stopped → s.isHeld [28, 29] q.val = false → ∃ t, exec (.queueResume r q) s = .next t ∧ (t.hq q.val).st = .running ∧
         (t.hq q.val).cause = 0 ∧ (t.hq q.val).sqDb = if x.cause = 2 then x.sqHead else x.sqDb) ∧
       (x.st ≠ .running → x.st ≠ .stopped → exec (.queueDisable r q) s = .next (s.qIgnore q.val)) ∧
       (x.st = .suspended → (s.hd (q.val / 16)).order = [] → ∃ t, exec (.queueResume r q) s = .next t ∧ (t.hq q.val).cause = x.backCause ∧
         ((t.hq q.val).st = x.backSt ∨ x.backSt = .disabling)) ∧
       (x.st ≠ .stopped → (x.st ≠ .suspended ∨ (s.hd (q.val / 16)).order ≠ []) → exec (.queueResume r q) s = .next (s.qIgnore q.val))) ∧
     (s.qWriter r (q.val / 16) = false → exec (.queueEnable r q) s = .next s ∧ exec (.queueDisable r q) s = .next s ∧
       exec (.queueResume r q) s = .next s) ∧
     (s.qWriter r h.val = false → ∀ p w, exec (.gtNqCfg r h p w) s = .next s) ∧
     (s.ioHeld = false → d.nqHead < v.toNat → v.toNat = d.nqTail →
       exec (.nqHead h v) s = .next (s.modHd h.val (fun d => { d with nqHead := v.toNat, nqArmed := true }))) ∧
     (s.ioHeld = false → d.nqHead < v.toNat → v.toNat < d.nqTail →
       exec (.nqHead h v) s = .next ((s.modHd h.val (fun d => { d with nqHead := v.toNat, nqArmed := false })).msix h.val
         (s.fld (nqReg h.val 0x408) 24 8))) ∧
     (s.ioHeld = true ∨ v.toNat ≤ d.nqHead ∨ d.nqTail < v.toNat → exec (.nqHead h v) s = .next s) ∧
     (∀ k rest, d.notices = k :: rest → s.fld (nqReg h.val 0x408) 8 1 = 1 → d.order = [] → s.onHold = false →
       d.nqTail + 1 ≤ d.nqHead + 2 ^ s.fld (nqReg h.val 0x408) 0 4 → ∃ t, exec (.noticeWrite h) s = .next t ∧
         (t.hd h.val).nqTail = d.nqTail + 1 ∧ (t.hd h.val).notices = rest ∧ (t.hd h.val).lost = 0 ∧ (t.hd h.val).nqArmed = false) ∧
     (∀ p w, s.qWriter r h.val = true →
       let a := nqReg h.val 0x408
       let v := pageWrite p (s.reg a) w 0xFF00010F
       (bitAt (s.reg a) 8 = false → (bitAt v 8 = true → 4 ≤ bitsOf v 0 4 ∧ bitsOf v 0 4 ≤ 12) →
         exec (.gtNqCfg r h p w) s = .next (s.setReg a v)) ∧
       (bitAt (s.reg a) 8 = false → bitAt v 8 = true → bitsOf v 0 4 < 4 ∨ 12 < bitsOf v 0 4 → exec (.gtNqCfg r h p w) s = .next s) ∧
       (bitAt (s.reg a) 8 = true → 4 ≤ bitsOf (s.reg a) 0 4 ∧ bitsOf (s.reg a) 0 4 ≤ 12 →
         exec (.gtNqCfg r h p w) s = .next (s.setReg a (setBits (s.reg a) 8 1 (bitsOf v 8 1))))))

/-- Drawn from R412 to R416, R418, R457 to R459, R463, R519: a ladle in service issues the next line of its current descriptor: a COPY_IN
as a host-side read under the lowest free tag, a COPY_OUT as a read of the pool line, a FILL as its write; nothing before the
descriptor's start course, and nothing where the ladle is closed, held, in self-test or out. The last fragment recorded ends the
descriptor with a status that tells which failed. The completion of a COPY_IN's read becomes a write of the pool line; of a read whose
ladle has let go of it, or that comes late, only the tag goes; a read without a completion is counted, its tag quarantined and its
fragment fails. A ladle's reset hands its descriptors over and its self-test ends it. -/
def Obligations.LadlesMoveLines : Prop :=
  ∀ (s : State) (l : Fin 64) (d : LDesc),
    let x := s.ladle l.val
    let g := d.hd / 16
    let closed : Prop := x.opened = false ∨ s.onHold = true ∨ x.budget = some 0 ∨ x.out = true ∨ x.testing = true ∨ s.isHeld [30, 31] l.val = true
    let unit : LReq := { frag := d.fragOf d.next, line := d.next, off := (d.part d.next).1, len := (d.part d.next).2, ph := .data 0 false }
    (closed → exec (.ladleIssue l) s = .next s) ∧
    (¬closed → x.descs = [d] → d.next ≤ d.lastLine →
      (s.course < dStart d.w → exec (.ladleIssue l) s = .next s) ∧
      (dStart d.w ≤ s.course → d.done.getLsbD (d.fragOf d.next) = false → s.stillHolds d.hd (blockOf (64 * d.next)) = true →
        (∀ t, d.op = 1 → s.mayIssue d.hd = true → s.nextTag d.hd = some t →
          ∃ u e, exec (.ladleIssue l) s = .next u ∧ (u.ladle l.val).descs = [e] ∧ e.next = d.next + 1 ∧
            e.reqs = d.reqs ++ [{ unit with ph := .host t }] ∧ tblFind (u.gate g).tags t = some { hd := d.hd, ladle := l.val, addr := d.hostAddr d.next unit.off, len := unit.len }) ∧
        (d.op = 1 → s.mayIssue d.hd = false → exec (.ladleIssue l) s = .next s) ∧
        (∀ k, s.homeUp d.next = some k → s.hasCredit (aidLadle l.val) k = true →
          (d.op = 2 → s.mayIssue d.hd = true → ∃ u e, exec (.ladleIssue l) s = .next u ∧ (u.ladle l.val).descs = [e] ∧ e.next = d.next + 1 ∧
            e.reqs = d.reqs ++ [{ unit with ph := .reads [s.tags] [] }] ∧
            ∃ m ∈ u.net, m.kind = .rdc ∧ m.aid = aidLadle l.val ∧ m.home = k ∧ m.line = d.next ∧ m.tag = s.tags) ∧
          (d.op = 5 → ∃ u e, exec (.ladleIssue l) s = .next u ∧ (u.ladle l.val).descs = [e] ∧ e.next = d.next + 1 ∧
            ∃ m ∈ u.net, m.kind = (if unit.len = 64 then .wrf else .wrp) ∧ m.aid = aidLadle l.val ∧ m.home = k ∧ m.line = d.next)))) ∧
    (∀ i : Fin 64, x.descs = [d] → i.val < d.frags → d.done.getLsbD i.val = false → (∀ k ∈ d.fragLines i.val, k < d.next) →
      (∀ r ∈ d.reqs, r.frag ≠ i.val) → mapSet d.done i.val = d.all → d.op ≠ 2 ∨ dOrdered d.w = false →
      (∀ e, tblFind (s.hq d.q).entries d.seq = some e → e.st = .accepted →
        (∃ u, exec (.fragmentComplete l i) s = .next u ∧ (u.ladle l.val).descs = [] ∧
          u.slotDone d.q d.seq (if d.fail = 0 then 0 else if d.fail = d.all then 0x41 else 0x40) 0) ∧
        (∀ k, d.op = 2 → d.fail.getLsbD i.val = true → d.noMark.getLsbD i.val = false → d.unsent = [k] → d.fragOf k = i.val →
          (s.gate g).up = true → ∃ u w, exec (.fragmentComplete l i) s = .next u ∧ (u.gate g).wrote = some w ∧ w.hd = d.hd ∧
            w.addr = d.hostAddr k (d.part k).1 ∧ w.len = (d.part k).2 ∧ w.poison = true))) ∧
    (∀ (m : Msg) r, m.aid = aidLadle l.val → x.descs = [d] → d.op = 2 → d.reqs = [r] → r.ph = .reads [m.tag] [] → r.off < 64 → r.len ≤ 64 →
      s.stillHolds d.hd (blockOf (64 * r.line)) = true →
      (m.poison = false → s.mayIssue d.hd = true → ∃ u w, exec (.datac m) s = .next u ∧ (u.ladle l.val).descs = [{ d with reqs := [] }] ∧
        (u.gate g).wrote = some w ∧ (u.gate g).writes = (s.gate g).writes + 1 ∧ w.hd = d.hd ∧ w.addr = d.hostAddr r.line r.off ∧ w.len = r.len ∧
        w.data.toNat = m.data.toNat / 2 ^ (8 * r.off) % 2 ^ (8 * r.len) ∧ w.poison = false ∧
        w.relaxed = (!dOrdered d.w && (s.hd d.hd).devCtl.getLsbD 4) ∧ w.ido = (s.hd d.hd).devCtl2.getLsbD 8) ∧
      (m.poison = true → ∃ u, exec (.datac m) s = .next u ∧ u.gates = s.gates ∧
        (u.ladle l.val).descs = [{ d with reqs := [], fail := mapSet d.fail r.frag, unsent := d.unsent ++ [r.line] }])) ∧
    (l.val ∈ s.fc.blkLd → ∃ u, exec (.ladleReset l) s = .next u ∧ (u.ladle l.val).testing = true ∧ (u.ladle l.val).descs = [] ∧
      l.val ∉ u.fc.blkLd ∧ aidLadle l.val ∈ u.dead) ∧
    (l.val ∉ s.fc.blkLd → exec (.ladleReset l) s = .next s) ∧
    (∀ pass, x.testing = true → ∃ u, exec (.ladleSelftestEnd l pass) s = .next u ∧ (u.ladle l.val).testing = false ∧
      (u.ladle l.val).out = !pass ∧ (pass = true → aidLadle l.val ∉ u.dead) ∧ (u.ladle l.val).descs = x.descs) ∧
    (∀ pass, x.testing = false → exec (.ladleSelftestEnd l pass) s = .next s) ∧
    (∀ (g : Fin 8) t (e : HTag), tblFind (s.gate g.val).tags t = some e → (s.gate g.val).ideBad = [] →
      (∀ data st, e.left.isSome = true ∨ e.discard = true → ∃ u, exec (.hostCompletion g t data st) s = .next u ∧
        tblFind (u.gate g.val).tags t = none ∧ u.ladles = s.ladles) ∧
      (∀ data r k, e.left = none → e.discard = false → e.ladle = l.val → x.descs = [d] → d.hd = e.hd → d.op = 1 →
        d.onTag t = some r → d.reqs = [r] → s.stillHolds d.hd (blockOf (64 * r.line)) = true → s.homeUp r.line = some k →
        s.hasCredit (aidLadle l.val) k = true → ∃ u, exec (.hostCompletion g t data .ok) s = .next u ∧ tblFind (u.gate g.val).tags t = none ∧
          ∃ m ∈ u.net, m.kind = (if r.len = 64 then .wrf else .wrp) ∧ m.aid = aidLadle l.val ∧ m.home = k ∧ m.line = r.line ∧
          (r.len = 64 → m.data = data))) ∧
    (∀ (g : Fin 8) t (e : HTag), tblFind (s.gate g.val).tags t = some e → e.left = none →
      (∃ u, exec (.completionTimeout g t) s = .next u ∧ tblFind (u.gate g.val).tags t = some { e with left := some 64 } ∧
        (∀ r, e.discard = false → e.ladle = l.val → x.descs = [d] → d.hd = e.hd → d.op = 1 → d.onTag t = some r → d.reqs = [r] →
          s.stillHolds d.hd (blockOf (64 * r.line)) = true →
          (u.ladle l.val).descs = [{ d with reqs := [], fail := mapSet d.fail r.frag }]))) ∧
    (∀ (g : Fin 8) t data st, tblFind (s.gate g.val).tags t = none →
      exec (.hostCompletion g t data st) s = .next s ∧ exec (.completionTimeout g t) s = .next s)

/-! ## Coherence -/

/-- Drawn from R272, R276 to R279, R281 to R284, R303, R304, R322, Table 11.7: what a request does at a home with nothing open, when its
turn in its requester's sequence has come, by the directory state it meets. An uncached line that hits the hearth is granted, read,
merged or combined at once, and a full write needs no hit; a RdS of a crucible under RSHARE makes a region entry; a shared line's other
copies are invalidated, and a Upg of the only sharer is granted; the owner, another crucible, is snooped as the table gives it; the
owner's write-back or clean eviction ends its copy, that of a relay ends the relay, and one of an agent that owns nothing changes nothing
and is counted as stale. A request that has overtaken an earlier one of its requester to the line waits for it (R387). -/
def Obligations.RequestsAtTheHome : Prop :=
  ∀ (s : State) (m : Msg) (k sl : Nat), s.homeOf m.line = some (k, sl) → s.homeQuiet k → s.dead.contains m.aid = false →
    m.aid < 0x180 → m.resv = false → s.unheld m = false →
    let x := s.ks k
    let v := s.homeValue k sl
    (x.homeSt sl = .hi → s.homeHit k sl = true →
      ((x.freeWay (dirSet sl)).isSome = true →
        (isCruAid m.aid = true → s.rshare m.line = false → s.ordered m .rds → ∃ t, exec (.rds m) s = .next t ∧
          (t.ks k).homeSt sl = .he m.aid ∧ t.toldData .dataX m.aid m.line m.tag v) ∧
        (s.ordered m .rdx → ∃ t, exec (.rdx m) s = .next t ∧ (t.ks k).homeSt sl = .he m.aid ∧ t.toldData .dataX m.aid m.line m.tag v)) ∧
      (s.rshare m.line = true → (∀ e ∈ x.dir, e.1 / 64 ≠ sl / 64) → x.regionsUsed (sl / 64) < 8 → s.ordered m .rds →
        ∃ t, exec (.rds m) s = .next t ∧ tblFind (t.ks k).regions (sl / 64) = some ⟨m.line / 64, vecAdd 0 m.aid⟩ ∧
          t.toldData .dataS m.aid m.line m.tag v) ∧
      (s.ordered m .rdc → ∃ t, exec (.rdc m) s = .next t ∧ (t.ks k).homeSt sl = .hi ∧ t.toldData .dataC m.aid m.line m.tag v ∧
        (s.plainLine k sl → t.homeValue k sl = v)) ∧
      (v.2 = false → m.poison = false → s.plainLine k sl →
        (s.ordered m .wrp → ∃ t, exec (.wrp m) s = .next t ∧ t.homeValue k sl = (mergeLine v.1 m.data m.mask, false) ∧
          (t.ks k).homeSt sl = .hi ∧ t.told .cmp m.aid m.line m.tag) ∧
        (s.ordered m .ram → ∃ t, exec (.rammerCombine m) s = .next t ∧ t.homeValue k sl = ((ramCombine m.op.toNat v.1 m.data).1, false) ∧
          (t.ks k).homeSt sl = .hi ∧ t.told .cmp m.aid m.line m.tag))) ∧
    (x.homeSt sl = .hi → s.ordered m .wrf → ∃ t, exec (.wrf m) s = .next t ∧ (t.ks k).homeSt sl = .hi ∧
      t.told .cmp m.aid m.line m.tag ∧ (s.plainLine k sl → t.homeValue k sl = (m.data, m.poison))) ∧
    (∀ relay vec, x.homeSt sl = .hs relay vec →
      let others := s.invTargets relay vec m.aid false
      (others ≠ [] → s.ordered m .rdx → ∃ t, exec (.rdx m) s = .next t ∧ t.snooping k sl m.line .snpInv others) ∧
      (others ≠ [] → s.ordered m .wrf → ∃ t, exec (.wrf m) s = .next t ∧ t.snooping k sl m.line .snpInv others) ∧
      (others = [] → relay = some m.aid ∨ vecHas vec m.aid = true → s.ordered m .upg → ∃ t, exec (.upg m) s = .next t ∧
        (t.ks k).homeSt sl = .he m.aid ∧ t.told .cmpX m.aid m.line m.tag) ∧
      (relay = some m.aid → s.ordered m .evc → ∃ t, exec (.evc m) s = .next t ∧ (t.ks k).homeSt sl = .hs none vec ∧
        t.told .cmp m.aid m.line m.tag)) ∧
    (∀ o, x.homeSt sl = .he o → isCruAid o = true → o ≠ m.aid → s.dead.contains o = false →
      (s.ordered m .rds → ∃ t, exec (.rds m) s = .next t ∧ t.snooping k sl m.line .snpFwdS [o]) ∧
      (s.ordered m .rdx → ∃ t, exec (.rdx m) s = .next t ∧ t.snooping k sl m.line .snpFwdX [o]) ∧
      (s.ordered m .upg → ∃ t, exec (.upg m) s = .next t ∧ t.snooping k sl m.line .snpFwdX [o]) ∧
      (s.ordered m .rdc → ∃ t, exec (.rdc m) s = .next t ∧ t.snooping k sl m.line .snpCur [o]) ∧
      (s.ordered m .wrf → ∃ t, exec (.wrf m) s = .next t ∧ t.snooping k sl m.line .snpInv [o]) ∧
      (s.ordered m .wrp → ∃ t, exec (.wrp m) s = .next t ∧ t.snooping k sl m.line .snpGetI [o]) ∧
      (s.ordered m .ram → ∃ t, exec (.rammerCombine m) s = .next t ∧ t.snooping k sl m.line .snpGetI [o])) ∧
    (x.homeSt sl ≠ .he m.aid →
      (s.ordered m .wbd → ∃ t, exec (.wbd m) s = .next t ∧ t.told .cmp m.aid m.line m.tag ∧ (t.ks k).homeSt sl = x.homeSt sl ∧
        t.reg (aKs k 0x4040) = (s.bump32 (aKs k 0x4040) 1).reg (aKs k 0x4040)) ∧
      (s.ordered m .wbk → ∃ t, exec (.wbk m) s = .next t ∧ t.told .cmp m.aid m.line m.tag ∧ (t.ks k).homeSt sl = x.homeSt sl ∧
        t.reg (aKs k 0x4040) = (s.bump32 (aKs k 0x4040) 1).reg (aKs k 0x4040))) ∧
    (x.homeSt sl = .he m.aid →
      (s.ordered m .wbd → ∃ t, exec (.wbd m) s = .next t ∧ tblFind (t.ks k).dir sl = none ∧ t.told .cmp m.aid m.line m.tag ∧
        (s.plainLine k sl → t.homeValue k sl = (m.data, m.poison))) ∧
      (s.ordered m .wbk → ∃ t, exec (.wbk m) s = .next t ∧ (t.ks k).homeSt sl = .he m.aid ∧ t.told .cmp m.aid m.line m.tag ∧
        (s.plainLine k sl → t.homeValue k sl = (m.data, m.poison))) ∧
      (s.ordered m .evc → ∃ t, exec (.evc m) s = .next t ∧ t.homeValue k sl = v ∧ tblFind (t.ks k).dir sl = none ∧
        t.told .cmp m.aid m.line m.tag)) ∧
    (¬ s.ordered m .rds → ∃ t, exec (.rds m) s = .next t ∧ { m with kind := .rds } ∈ t.early ∧ t.kss = s.kss)

/-- Drawn from R272, R276, R281, R297, R303, R312, R313: what an answer does at a home with one open transaction that waits for it alone:
the SnpAck closes a forwarded RdX or RdS, or an eviction; SnpAck (WBP) leaves it waiting for the write-back; the data that accompanies an
answer is kept for the transaction; an owner that the reclaim finds in X leaves the line as it is, and one found in another state, or
that answers nothing in time, poisons it; a request to the line of an open transaction waits behind it. R293, R312: a Retry is kept by
its requester; an RGrant makes it send the request again; a sweep that has met every entry, with no other put off behind it, ends, and
without one under way nothing happens. -/
def Obligations.AnswersAtTheHome : Prop :=
  (∀ (s : State) (m : Msg) (k sl n : Nat) (t0 : Txn), s.homeOf m.line = some (k, sl) → s.homeOpen k t0 → s.dead.contains m.aid = false →
     m.aid = n → isCruAid n = true → t0.sla = sl → t0.line = m.line → t0.waitsFor n →
     (t0.kind = .client → t0.phase = .main → t0.gone = false → s.dead.contains t0.req.aid = false → m.ok = true → m.dat = false →
       (t0.req.kind = .rdx → t0.snp = some .snpFwdX → m.ack = .i →
         ∃ t, exec (.snpack m) s = .next t ∧ (t.ks k).txns = [] ∧ (t.ks k).homeSt sl = .he t0.req.aid) ∧
       (t0.req.kind = .rds → t0.snp = some .snpFwdS → (s.ks k).homeSt sl = .he n → n ≠ t0.req.aid → m.ack = .s ∨ m.ack = .l →
         ∃ t, exec (.snpack m) s = .next t ∧ (t.ks k).txns = [] ∧
           (t.ks k).homeSt sl = .hs (if m.ack = .l then some n else none) (vecAdd (vecAdd 0 n) t0.req.aid))) ∧
     (t0.kind = .evict → t0.phase = .main → t0.leave = none → m.ack = .i → m.dat = false →
       ∃ t, exec (.snpack m) s = .next t ∧ (t.ks k).txns = [] ∧ tblFind (t.ks k).dir sl = none ∧
         t.reg64 (aKs k 0x4010) = (s.bump64 (aKs k 0x4010) 1).reg64 (aKs k 0x4010)) ∧
     (t0.phase = .main → m.ack = .wbp → ∃ t, exec (.snpack m) s = .next t ∧ (t.ks k).txns = [{ t0 with wait := [], wbp := [n] }]) ∧
     (∃ t, exec (.snpdata m) s = .next t ∧ (t.ks k).txns = [{ t0 with dirty := some (m.data, m.poison) }]) ∧
     (t0.kind = .reclaim → t0.phase = .tagq →
       (m.ack = .x → n ∉ (s.ks k).tagFail → ∃ t, exec (.tagr m) s = .next t ∧ (t.ks k).txns = [] ∧
         tblFind (t.ks k).dir sl = none ∧ t.homeValue k sl = s.homeValue k sl) ∧
       (m.ack ≠ .x → ∃ t, exec (.tagr m) s = .next t ∧ (t.ks k).txns = [] ∧
         tblFind (t.ks k).dir sl = none ∧ (s.plainLine k sl → t.homeValue k sl = ((s.homeValue k sl).1, true)))) ∧
     (∀ (kk : Fin 24) (nn : Fin 72), kk.val = k → nn.val = n → t0.kind = .reclaim → t0.phase = .tagq →
       ∃ t, exec (.tagrTimeout kk nn m.line) s = .next t ∧ (t.ks k).txns = [] ∧ tblFind (t.ks k).dir sl = none ∧
         (s.plainLine k sl → t.homeValue k sl = ((s.homeValue k sl).1, true)) ∧ n ∈ (t.ks k).tagFail) ∧
     (s.ordered m .rdx → ∃ t, exec (.rdx m) s = .next t ∧ (t.ks k).txns = [t0] ∧ (t.ks k).queue = [{ m with kind := .rdx }])) ∧
  (∀ (s : State),
     (∀ m, exec (.retry m) s = .next { s with net := s.net.erase { m with kind := .retry } }) ∧
     (∀ m r, (s.ks m.home).resv.find? (fun r => r.2.2.aid == m.aid && r.2.2.tag == m.tag && r.2.2.line == m.line) = some r →
       ∃ t, exec (.rgrant m) s = .next t ∧ (r.2.2 ∈ t.net ∨ r.2.2 ∈ (t.ks m.home).queue) ∧ t.kss = s.kss) ∧
     (∀ k : Fin 24, (s.ks k.val).sweeping = true → (s.ks k.val).sweepLeft = false → (s.ks k.val).nextSweep = [] →
       (∀ e ∈ s.crus, e.2.st ≠ .resetting) → ∃ t, exec (.reclaimSweepEnd k) s = .next t ∧ (t.ks k.val).sweeping = false ∧
         (t.ks k.val).sweep = [] ∧ (t.ks k.val).dir = (s.ks k.val).dir) ∧
     (∀ k : Fin 24, (s.ks k.val).sweeping = false → exec (.reclaimSweepEnd k) s = .next s))

/-- Drawn from R93, R276 to R280, R315, R338, R339, Table 11.5: a crucible with nothing under way in its cache, and to which no grant of
a line is on its way, answers a snoop of a line it holds by the snoop's kind: SnpFwdS leaves S or L and sends DataS, SnpFwdX, SnpGetI and
SnpInv end the copy, SnpCur leaves it; dirty data goes to the home where no message carries it on; SnpInvG ends every S copy of the
granule; a line it does not hold is answered I; a TagQ is answered with the tag's state, and with FAIL where the set's tags cannot be
read. A FAILED crucible answers no snoop, and one that invalidates its cache answers I. R196, R301, R302, R305, R330, R336, R372: at a
running crucible with nothing else under way, Cmp ends a posted write, gives a STCOND its answer, or ends a write-back; CmpX makes the
held copy X; a data message installs its line in the state it grants, in a free way, poisoned where it came so. At a control core a Cmp
answers a STCOND and data ends a load. For a host domain each ends the request's access. DataC ends a read of the set itself. -/
def Obligations.SnoopsAndResponses : Prop :=
  (∀ (s : State) (m : Msg),
     let line := m.line
     let at_ (t : State) := tblFind (t.cru m.aid).cache line
     let ack (t : State) (a : AckState) : Prop := ∃ r ∈ t.net, r.kind = .snpAck ∧ r.aid = m.aid ∧ r.home = m.home ∧ r.line = line ∧ r.ack = a
     (s.cruStill m.aid → (∀ g ∈ s.net, g.aid = m.aid → grantOf g.kind = .i) →
       (∀ x, at_ s = some x →
         let data := (x.data, x.poison != 0)
         let others (t : State) : Prop := ∀ l, l ≠ line → tblFind (t.cru m.aid).cache l = tblFind (s.cru m.aid).cache l
         (∃ t, exec (.snpfwds m) s = .next t ∧ others t ∧ t.toldData .dataS m.other line m.tag data ∧
           (let k := if x.st = .s ∨ x.st = .l then x.st else if m.near then .l else .s
            at_ t = some { x with st := k } ∧ ack t (ackOf k)) ∧ (x.st = .d → t.toldData .snpData m.aid line m.tag data)) ∧
         (∃ t, exec (.snpfwdx m) s = .next t ∧ others t ∧ at_ t = none ∧ ack t .i ∧
           t.toldData (if x.st = .d then .dataD else .dataX) m.other line m.tag data) ∧
         (∃ t, exec (.snpcur m) s = .next t ∧ others t ∧ at_ t = some x ∧ ack t (ackOf x.st) ∧ t.toldData .dataC m.other line m.tag data) ∧
         (∃ t, exec (.snpinv m) s = .next t ∧ others t ∧ at_ t = none ∧ ack t .i) ∧
         (∃ t, exec (.snpgeti m) s = .next t ∧ others t ∧ at_ t = none ∧ ack t .i ∧ (x.st = .d → t.toldData .snpData m.aid line m.tag data)) ∧
         (cacheIndex line ∉ (s.cru m.aid).tagBad → ∃ t, exec (.tagq m) s = .next t ∧ t.crus = s.crus ∧
           ∃ r ∈ t.net, r.kind = .tagR ∧ r.aid = m.aid ∧ r.home = m.home ∧ r.line = line ∧ r.ack = ackOf x.st)) ∧
       (∃ t, exec (.snpinvg m) s = .next t ∧ ack t .i ∧
         (∀ e ∈ (s.cru m.aid).cache, e.1 / 64 = line / 64 → e.2.st = .s → tblFind (t.cru m.aid).cache e.1 = none) ∧
         ∀ l, (∀ e ∈ (s.cru m.aid).cache, e.1 = l → l / 64 = line / 64 → e.2.st ≠ .s) →
           tblFind (t.cru m.aid).cache l = tblFind (s.cru m.aid).cache l) ∧
       (at_ s = none →
         (∃ t, exec (.snpfwds m) s = .next t ∧ t.crus = s.crus ∧ ack t .i) ∧ (∃ t, exec (.snpfwdx m) s = .next t ∧ t.crus = s.crus ∧ ack t .i) ∧
         (∃ t, exec (.snpcur m) s = .next t ∧ t.crus = s.crus ∧ ack t .i) ∧ (∃ t, exec (.snpinv m) s = .next t ∧ t.crus = s.crus ∧ ack t .i) ∧
         (∃ t, exec (.snpgeti m) s = .next t ∧ t.crus = s.crus ∧ ack t .i))) ∧
     (isCruAid m.aid = true → hasCru s.build m.aid = true →
       (cacheIndex line ∈ (s.cru m.aid).tagBad → (s.cru m.aid).st ≠ .off → ∃ t, exec (.tagq m) s = .next t ∧ t.crus = s.crus ∧
         ∃ r ∈ t.net, r.kind = .tagR ∧ r.aid = m.aid ∧ r.home = m.home ∧ r.line = line ∧ r.ack = .fail) ∧
       ((s.cru m.aid).st = .failed →
         exec (.snpfwds m) s = .next (s.recv { m with kind := .snpFwdS }) ∧ exec (.snpfwdx m) s = .next (s.recv { m with kind := .snpFwdX }) ∧
         exec (.snpcur m) s = .next (s.recv { m with kind := .snpCur }) ∧ exec (.snpinv m) s = .next (s.recv { m with kind := .snpInv }) ∧
         exec (.snpgeti m) s = .next (s.recv { m with kind := .snpGetI }) ∧ exec (.snpinvg m) s = .next (s.recv { m with kind := .snpInvG })) ∧
       ((s.cru m.aid).st ≠ .failed → (s.cru m.aid).cst = .invalidating →
         (∃ t, exec (.snpfwds m) s = .next t ∧ t.crus = s.crus ∧ ack t .i) ∧ (∃ t, exec (.snpfwdx m) s = .next t ∧ t.crus = s.crus ∧ ack t .i) ∧
         (∃ t, exec (.snpcur m) s = .next t ∧ t.crus = s.crus ∧ ack t .i) ∧ (∃ t, exec (.snpinv m) s = .next t ∧ t.crus = s.crus ∧ ack t .i) ∧
         (∃ t, exec (.snpgeti m) s = .next t ∧ t.crus = s.crus ∧ ack t .i) ∧ (∃ t, exec (.snpinvg m) s = .next t ∧ t.crus = s.crus ∧ ack t .i)))) ∧
  (∀ (s : State) (m : Msg),
     let n := m.aid
     let c := s.cru n
     let line := m.line
     let open_ : List Access := s.outst.filter (fun a => !(a.aid == n && a.tag == m.tag))
     (∀ a, s.cruStill n → c.st = .running → s.outst.find? (fun a => a.aid == n && a.tag == m.tag) = some a → a.wb = false →
       ∃ t, exec (.cmp m) s = .next t ∧ t.outst = open_ ∧ t.cru n = if m.resv then { c with condGot := some m.ok } else c) ∧
     (isCruAid n = true → c.st = .running → c.xq = [] → c.miss = [] → c.range = none → c.snps = [] →
       ∀ a, s.outst.find? (fun a => a.aid == n && a.tag == m.tag) = some a → a.wb = true → ∃ t, exec (.cmp m) s = .next t ∧
         t.outst = open_ ∧ t.cru n = { c with wb := tblDel c.wb line }) ∧
     (∀ e, isCruAid n = true → c.st = .running → c.xq = [] → c.wb = [] → c.range = none → c.snps = [] → c.miss = [(line, e)] →
       e.tag = m.tag → e.got = none → e.err = false →
       let others (t : State) : Prop := ∀ l, l ≠ line → tblFind (t.cru n).cache l = tblFind c.cache l
       (∀ x, tblFind c.cache line = some x →
         ∃ t, exec (.cmpx m) s = .next t ∧ tblFind (t.cru n).cache line = some { x with st := .x } ∧ others t ∧ (t.cru n).miss = []) ∧
       (∀ w, e.noInst = false → e.fetch = false → tblFind c.cache line = none → c.fillWay line 0 = some (w, none) →
         let put (t : State) (st : CSt) : Prop := tblFind (t.cru n).cache line = some ⟨st, m.data, if m.poison then 0xFF else 0, w⟩ ∧
           others t ∧ (t.cru n).miss = []
         (∃ t, exec (.datax m) s = .next t ∧ put t .x) ∧ (∃ t, exec (.datad m) s = .next t ∧ put t .d) ∧
         (∃ t, exec (.datas m) s = .next t ∧ put t .s) ∧ (∃ t, exec (.datal m) s = .next t ∧ put t .l))) ∧
     (isCoreAid n = true →
       let x := n - 0xC0
       (∀ i, (s.core x).wait = .cond i m.tag → ∃ t, exec (.cmp m) s = .next t ∧ (t.core x).wait = .none ∧ t.outst = open_ ∧
         (t.core x).mki = (s.core x).mki.setS (i.ws.getD 0 0) (if m.ok then 0 else 1)) ∧
       (∀ i, (s.core x).wait = .load i m.tag → m.poison = false → ∃ t, exec (.datac m) s = .next t ∧ (t.core x).wait = .none ∧
         t.outst = open_ ∧
         (t.core x).mki = (s.core x).mki.landed i (bitsOf m.data (8 * ((i.opv 0).toNat % 64)) (8 * (i.opv 1).toNat)))) ∧
     (isHostAid n = true →
       (∃ t, exec (.cmp m) s = .next t ∧ t.outst = open_ ∧ t.kss = s.kss) ∧ (∃ t, exec (.cmpx m) s = .next t ∧ t.outst = open_ ∧ t.kss = s.kss) ∧
       (∃ t, exec (.datax m) s = .next t ∧ t.outst = open_ ∧ t.kss = s.kss) ∧ (∃ t, exec (.datas m) s = .next t ∧ t.outst = open_ ∧ t.kss = s.kss) ∧
       (∃ t, exec (.datac m) s = .next t ∧ t.outst = open_ ∧ t.kss = s.kss)) ∧
     (∀ q l r, n = aidSet → tblFind (s.hq q).reads l = some r → r.tag = m.tag → r.got = none → ∃ t, exec (.datac m) s = .next t ∧
       tblFind (t.hq q).reads l = some { r with got := some (if m.poison then none else some m.data) }))

/-- Drawn from R250, R252, R283, R286, R306 to R308, R449, Table 11.6: a CXL.mem request of a served host domain whose gate holds a
credit at the line's home, idle but for what is said, acts there as the table gives it; one to a block it does not hold gets zeros with
the poison bit and is counted. A Back-Invalidate answer closes the transaction that waits for it, or leaves it waiting for dirty data,
which a MemWr brings. BIConflict is answered while a snoop of the line waits for the host. A domain or crucible that answers none in time
is dead. -/
def Obligations.HostMemory : Prop :=
  ∀ (s : State) (r0 r : HostReq) (k sl : Nat), s.hostAddr r0 = some r → s.hostServed r0.hd.val → s.homeOf (hostLine r) = some (k, sl) →
    let h := r0.hd.val
    let a := aidHd h
    let line := hostLine r
    let x := s.ks k
    let v := s.homeValue k sl
    (s.homeQuiet k → s.hasCredit a k = true →
      (s.holds h (blockOf (64 * line)) = false →
        (∃ t, exec (.memrd r0) s = .next t ∧ t.toldData .dataC a line r.tag (0, true) ∧
          t.reg64 0x24010 = min (s.reg64 0x24010 + 1) (2 ^ 64 - 1)) ∧
        (∃ t, exec (.memwr r0) s = .next t ∧ t.told .cmp a line r.tag ∧ t.homeValue k sl = v)) ∧
      (s.holds h (blockOf (64 * line)) = true →
        (x.homeSt sl = .hi → s.homeHit k sl = true →
          (s.flit68 r0.hd = false → (x.freeWay (dirSet sl)).isSome = true →
            (r.mv = .a → ∃ t, exec (.memrd r0) s = .next t ∧ (t.ks k).homeSt sl = .he a ∧ t.toldData .dataX a line r.tag v) ∧
            (r.mv = .s → s.rshare line = false → ∃ t, exec (.memrd r0) s = .next t ∧ (t.ks k).homeSt sl = .hs none (vecAdd 0 a) ∧
              t.toldData .dataS a line r.tag v)) ∧
          (r.mv = .i ∨ s.flit68 r0.hd = true → ∃ t, exec (.memrd r0) s = .next t ∧ (t.ks k).homeSt sl = .hi ∧
            t.toldData .dataC a line r.tag v) ∧
          (∃ t, exec (.memrddata r0) s = .next t ∧ (t.ks k).homeSt sl = .hi ∧ t.toldData .dataC a line r.tag v) ∧
          (v.2 = false → r.poison = false → s.plainLine k sl → ∃ t, exec (.memwrptl r0) s = .next t ∧
            t.homeValue k sl = (mergeLine v.1 r.data r.mask, false) ∧ t.told .cmp a line r.tag)) ∧
        (x.homeSt sl = .hi → r.mv = .i ∨ s.flit68 r0.hd = true → s.plainLine k sl → ∃ t, exec (.memwr r0) s = .next t ∧
          t.homeValue k sl = (r.data, r.poison) ∧ t.told .cmp a line r.tag) ∧
        (∀ vec, x.homeSt sl = .hs none vec → vecHas vec a = true → s.invTargets none vec a false = [] →
          ∃ t, exec (.meminv r0) s = .next t ∧ (t.ks k).homeSt sl = .he a ∧ t.told .cmpX a line r.tag) ∧
        (x.homeSt sl = .he a → s.flit68 r0.hd = false →
          (r.mv = .a → s.plainLine k sl → ∃ t, exec (.memwr r0) s = .next t ∧ t.homeValue k sl = (r.data, r.poison) ∧
            (t.ks k).homeSt sl = .he a) ∧
          (r.mv = .i → s.plainLine k sl → ∃ t, exec (.memwr r0) s = .next t ∧ t.homeValue k sl = (r.data, r.poison) ∧
            tblFind (t.ks k).dir sl = none) ∧
          (∃ t, exec (.memclnevct r0) s = .next t ∧ t.homeValue k sl = v ∧ tblFind (t.ks k).dir sl = none ∧ t.told .cmp a line r.tag)))) ∧
    (∀ t0, s.homeOpen k t0 → t0.sla = sl → t0.line = line → t0.waitsFor a →
      (t0.kind = .client → t0.phase = .main → t0.gone = false → t0.fwd = false → t0.dirty = none → t0.mem = some v → t0.req.aid < 72 →
        s.dead.contains t0.req.aid = false → t0.wbKind = none → x.homeSt sl = .he a → r.dirty = false →
        (t0.req.kind = .rdx → ∃ t, exec (.birspi r0) s = .next t ∧ (t.ks k).txns = [] ∧ (t.ks k).homeSt sl = .he t0.req.aid ∧
          t.toldData .dataX t0.req.aid line t0.req.tag v) ∧
        (t0.req.kind = .rds → ∃ t, exec (.birsps r0) s = .next t ∧ (t.ks k).txns = [] ∧
          (t.ks k).homeSt sl = .hs none (vecAdd (vecAdd 0 a) t0.req.aid) ∧ t.toldData .dataS t0.req.aid line t0.req.tag v) ∧
        (t0.req.kind = .rdc → t0.req.resv = false → t0.reclaimed = false → ∃ t, exec (.birspe r0) s = .next t ∧ (t.ks k).txns = [] ∧
          (t.ks k).homeSt sl = .he a ∧ t.toldData .dataC t0.req.aid line t0.req.tag v)) ∧
      (t0.dirty = none → t0.phase = .main → r.dirty = true → ∃ t u, exec (.birspi r0) s = .next t ∧ (t.ks k).txns = [u] ∧ u.wait = [] ∧ u.dataWait = [a]) ∧
      (s.flit68 r0.hd = false → ∃ t, exec (.memwr r0) s = .next t ∧ (t.ks k).txns = [{ t0 with dirty := some (r.data, r.poison) }] ∧
        t.told .cmp a line r.tag)) ∧
    exec (.biconflict r0) s = .next (if s.hostOwes h line then s.send (hostMsg r .biConflictAck 0) else s) ∧
    (∀ g l, exec (.h2dSnoop g l) s = .next s) ∧
    (∀ kk : Fin 24, s.awaits kk.val a line = true → (s.gate (h / 16)).retraining = false → (s.gate (h / 16)).up = true →
      ∃ t, exec (.biTimeout kk r0.hd line) s = .next t ∧ (t.hd h).biDead = true ∧ a ∈ t.dead ∧ h ∉ t.attached) ∧
    (∀ kk : Fin 24, s.awaits kk.val a line = false ∨ (s.gate (h / 16)).retraining = true → exec (.biTimeout kk r0.hd line) s = .next s) ∧
    (∀ (kk : Fin 24) (n : Fin 72),
      (s.awaits kk.val n.val line = true → hasCru s.build n.val = true → (s.cru n.val).st ≠ .retired → (s.cru n.val).st ≠ .failed →
        s.fc.blkCru = [] → (s.reg (aFt (0x4000 + 4 * 7))).getLsbD 2 = false →
        ∃ t, exec (.snoopTimeout kk n line) s = .next t ∧ (t.cru n.val).st = .failed ∧ n.val ∈ t.fc.failReports) ∧
      (s.awaits kk.val n.val line = true → (s.cru n.val).st = .failed →
        exec (.snoopTimeout kk n line) s = .next (s.raiseAt 7 (unitCru n.val))) ∧
      (s.awaits kk.val n.val line = false → exec (.snoopTimeout kk n line) s = .next s))

/-! ## Caches, the memory port and the fabric -/

/-- Drawn from R203, R339 to R342, R345, R346, Table 14.4, Table 14.5: a range command of firmware, on a cache that holds one dirty line
and has nothing else under way, writes the line back where its range covers it, CLEAN keeping it as X and FLUSH taking it out; it is
counted as rejected while another runs, and nothing happens for another requester or a RETIRED crucible. A command ends once every
write-back has its Cmp; a drain ends in BYPASS, or ENABLED when ENABLE came back, and an invalidation as ENABLE says. R353, R354: the
walk of a hearth's drain hands every dirty line to the eviction buffer, where its value stands, and ends with no line left once the
buffer has room for all; its invalidation at power-up ends as ENABLE says. -/
def Obligations.CacheAndHearthCommands : Prop :=
  (∀ (s : State) (r : Requester) (n : Fin 72),
     let q := s.cru n.val
     let lo := s.reg64 (aCr n.val 0x4008) / 64
     let hi := s.reg64 (aCr n.val 0x4010) / 64
     (s.isFw r = false ∨ q.st = .retired → exec (.clean r n) s = .next s ∧ exec (.flush r n) s = .next s ∧ exec (.cleanAll r n) s = .next s ∧
       exec (.flushAll r n) s = .next s) ∧
     (s.isFw r = true → hasCru s.build n.val = true → q.st ≠ .retired →
       (q.range.isSome = true → exec (.clean r n) s = .next (s.bump (aCr n.val 0x401C) 0 16 1) ∧
         exec (.flush r n) s = .next (s.bump (aCr n.val 0x401C) 0 16 1) ∧ exec (.cleanAll r n) s = .next (s.bump (aCr n.val 0x401C) 0 16 1) ∧
         exec (.flushAll r n) s = .next (s.bump (aCr n.val 0x401C) 0 16 1)) ∧
       (∀ line x k, q.range = none → q.miss = [] → q.wb = [] → q.cache = [(line, x)] → x.st = .d → s.homeUp line = some k →
         s.hasCredit n.val k = true → line < 2 ^ 35 →
         (lo ≤ line → line ≤ hi →
           (∃ t, exec (.clean r n) s = .next t ∧ (t.cru n.val).cache = [(line, { x with st := .x })] ∧ t.sentTo .wbk n.val line ∧
             (t.cru n.val).range.isSome = true) ∧
           (∃ t, exec (.flush r n) s = .next t ∧ (t.cru n.val).cache = [] ∧ t.sentTo .wbd n.val line ∧ (t.cru n.val).range.isSome = true)) ∧
         (line < lo ∨ hi < line → (∃ t, exec (.clean r n) s = .next t ∧ (t.cru n.val).cache = q.cache ∧ t.net = s.net) ∧
           (∃ t, exec (.flush r n) s = .next t ∧ (t.cru n.val).cache = q.cache ∧ t.net = s.net)) ∧
         (∃ t, exec (.cleanAll r n) s = .next t ∧ (t.cru n.val).cache = [(line, { x with st := .x })] ∧ t.sentTo .wbk n.val line ∧
           (t.cru n.val).range.isSome = true) ∧
         (∃ t, exec (.flushAll r n) s = .next t ∧ (t.cru n.val).cache = [] ∧ t.sentTo .wbd n.val line ∧ (t.cru n.val).range.isSome = true))) ∧
     (∀ g, q.range = some g → g.walked = true →
       let open_ := q.wb.any (fun e => e.2.byRange)
       (open_ = true ∨ (q.cst = .draining ∧ g.why = .drain) → exec (.rangeCommandEnd n) s = .next s) ∧
       (open_ = false → ¬(q.cst = .draining ∧ g.why = .drain) → q.cst ≠ .invalidating → q.st = .running → g.why ≠ .charge →
         exec (.rangeCommandEnd n) s = .next (s.setCru n.val { q with range := none }))) ∧
     (q.cst = .draining → q.cache = [] → q.wb = [] → q.miss = [] → q.xq = [] →
       (q.range = none ∨ ((q.range.map (·.why)) = some .drain ∧ q.rangeDone = true)) → exec (.cacheDrainEnd n) s =
         .next (s.setCru n.val { q with range := none, cst := if q.reenable then .enabled else .bypass, reenable := false })) ∧
     (q.cst ≠ .draining → exec (.cacheDrainEnd n) s = .next s) ∧
     (q.cst = .invalidating → q.xq = [] → q.range = none → ∃ t, exec (.cacheInvalidateEnd n) s = .next t ∧
       t.cru n.val = { q with cache := [], wb := [], miss := [], cst := if s.fld (aCr n.val 0x4000) 0 1 = 1 then .enabled else .bypass }) ∧
     (q.cst ≠ .invalidating → exec (.cacheInvalidateEnd n) s = .next s)) ∧
  (∀ (s : State) (k : Fin 24),
     let x := s.ks k.val
     let d := x.hearth.filter (fun e => e.2.dirty)
     (x.hst = .draining →
       (d.length ≤ 64 - x.evq.length → ∃ t, exec (.hearthDrainEnd k) s = .next t ∧ (t.ks k.val).hearth = [] ∧
         (t.ks k.val).hst = (if x.hearthReenable then .enabled else .bypass) ∧
         (t.ks k.val).evq = x.evq ++ d.map (fun e => (e.1, e.2.data, e.2.poison)) ∧
         ∀ sl h, tblFind x.hearth sl = some h → h.dirty = true → t.homeValue k.val sl = s.homeValue k.val sl) ∧
       (64 - x.evq.length < d.length → ∃ t, exec (.hearthDrainEnd k) s = .next t ∧ (t.ks k.val).hst = .draining)) ∧
     (x.hst ≠ .draining → exec (.hearthDrainEnd k) s = .next s) ∧
     (x.hst = .invalidating → 1 ∈ s.rst.steps → x.txns = [] → x.queue = [] → x.retry = [] → x.jobs = [] →
       ∃ t, exec (.hearthInvalidateEnd k) s = .next t ∧
       (t.ks k.val).hst = (if s.fld (aKs k.val 0x8000) 0 1 = 1 then .enabled else .bypass) ∧ (t.ks k.val).hearth = [] ∧ (t.ks k.val).evq = []) ∧
     (x.hst ≠ .invalidating ∨ 1 ∉ s.rst.steps → exec (.hearthInvalidateEnd k) s = .next s))

/-- Drawn from R534, R535, R537, R539 to R543: the controller's answer to a read brings the line's data to its transaction, with the
poison bit where it is uncorrectable, and counts an error; a write is done; an eviction-buffer line reaches the stack; a scrub moves the
cursor on, and at LIMIT ends the pass, or begins the next one in CONTINUOUS; firmware starts and stops a pass and clears the log; the
check-bit test writes and reads a line of the stack with its check bits, and is refused where the line may not be tested; a port without
an answer, with a fatal error or whose channel does not retrain, is FAILED; the controller's other answers are kept. -/
def Obligations.MemoryPort : Prop :=
  ∀ (s : State) (k : Fin 24) (r : Requester) (sla : BitVec 30) (die : BitVec 4) (st : PortStatus),
    let x := s.ks k.val
    let sl := sla.toNat
    let a (o : Nat) : Nat := aMp k.val o
    (∀ t0 w, s.portFailed k.val = false → sl ∈ x.rdq → x.txns = [t0] → t0.sla = sl → t0.memPend = true → t0.wait = [w] → x.queue = [] →
      x.retry = [] → x.jobs = [] → ∃ t d, exec (.rd k sla st die) s = .next t ∧ (t.ks k.val).rdq = x.rdq.erase sl ∧
        (t.ks k.val).txns = [{ t0 with mem := some d, memPend := false }] ∧ (st ≠ .ue → d = s.stackLine k.val sl) ∧ (st = .ue → d.2 = true) ∧
        t.reg64 (a 0x18) = (if st = .ue then s.bump64 (a 0x18) 1 else s).reg64 (a 0x18) ∧
        t.reg64 (a 0x10) = (if st = .ce ∨ st = .ceErasure then s.bump64 (a 0x10) 1 else s).reg64 (a 0x10)) ∧
    (s.portFailed k.val = true ∨ sl ∉ x.rdq → exec (.rd k sla st die) s = .next s) ∧
    (s.portFailed k.val = false → sl ∈ x.wrq → exec (.wr k sla) s = .next (s.setKs k.val { x with wrq := x.wrq.erase sl })) ∧
    (∀ d p, s.portFailed k.val = false → sl ∉ x.wrq → x.evq.find? (fun e => e.1 == sl) = some (sl, d, p) → ∃ t, exec (.wr k sla) s = .next t ∧
      (t.ks k.val).evq = x.evq.filter (fun e => e.1 != sl) ∧
      (s.unspec = [] → Memory.wf s.stack = true → t.stackLine k.val sl = (d, p))) ∧
    (s.portFailed k.val = true → exec (.wr k sla) s = .next s) ∧
    (let cur := s.scrubCursor k.val
     let lim := s.reg64 (a 0x508) / 64
     (s.scrubBusy k.val = true → x.scrubLeft ≠ 0 → x.busy cur = false → s.portFailed k.val = false → s.internalRoom k.val = true →
      (cur < lim → cur + 1 < 2 ^ 30 → ∃ t, exec (.scrub k st die) s = .next t ∧ t.scrubCursor k.val = cur + 1 ∧
        (t.ks k.val).scrubLeft = x.scrubLeft - 1) ∧
      (lim ≤ cur → s.fld (a 0x510) 24 1 = 0 → ∃ t, exec (.scrub k st die) s = .next t ∧ t.scrubBusy k.val = false) ∧
      (lim ≤ cur → s.fld (a 0x510) 24 1 = 1 → ∃ t, exec (.scrub k st die) s = .next t ∧ t.scrubBusy k.val = true ∧
        t.reg64 (a 0x520) = s.reg64 (a 0x500))) ∧
     (s.scrubBusy k.val = false ∨ x.scrubLeft = 0 ∨ x.busy cur = true ∨ s.internalRoom k.val = false → exec (.scrub k st die) s = .next s)) ∧
    (∀ v, (hasKs s.build k.val = true →
        exec (.reg k .geom v) s = .next (s.setReg (a 8) (v.setWidth 32 &&& 0xFFFF0000)) ∧
        (∀ i, exec (.reg k (.pos i) v) s = .next (s.setFld (a (0x104 + 8 * i.val)) 24 6 v.toNat)) ∧
        exec (.reg k .refreshForced v) s = .next (s.setReg64 (a 0x20) v.toNat) ∧
        exec (.reg k .eraseDone v) s = .next s ∧
        (s.keyUp k.val = true → s.portFailed k.val = false → ∃ t, exec (.reg k .fatal v) s = .next t ∧ t.portFailed k.val = true ∧ k.val ∈ t.ksOut)) ∧
      (hasKs s.build k.val = false → ∀ g, exec (.reg k g v) s = .next s)) ∧
    ((x.rdq ≠ [] ∨ x.wrq ≠ [] ∨ x.evq ≠ []) → hasKs s.build k.val = true → s.keyUp k.val = true → s.portFailed k.val = false →
      ∃ t, exec (.mpTimeout k) s = .next t ∧ t.portFailed k.val = true ∧ k.val ∈ t.ksOut) ∧
    ((x.rdq = [] ∧ x.wrq = [] ∧ x.evq = []) ∨ s.portFailed k.val = true → exec (.mpTimeout k) s = .next s) ∧
    (∀ j, (hasKs s.build k.val = true → s.keyUp k.val = true → s.portFailed k.val = false →
        ∃ t, exec (.channelRetrainFailed k j) s = .next t ∧ t.portFailed k.val = true ∧ k.val ∈ t.ksOut) ∧
      (s.portFailed k.val = true → exec (.channelRetrainFailed k j) s = .next s)) ∧
    (s.isFw r = true → s.keyUp k.val = true →
      (s.scrubBusy k.val = false → ∃ t, exec (.scrubStart r k) s = .next t ∧ t.scrubBusy k.val = true ∧ t.reg64 (a 0x520) = s.reg64 (a 0x500)) ∧
      (s.scrubBusy k.val = true → exec (.scrubStart r k) s = .next s) ∧
      exec (.scrubStop r k) s = .next (s.setFld (a 0x514) 31 1 0) ∧
      (∃ t, exec (.logClear r k) s = .next t ∧ t.reg (a 0x480) = 0 ∧ ∀ j, j < 16 → t.reg64 (a (0x400 + 8 * j)) = 0) ∧
      (s.testOk k.val = true → s.portFailed k.val = false →
        let tl := s.reg64 (a 0x608) / 64
        (∃ t, exec (.wrRaw r k) s = .next t ∧ tl ∈ (t.ks k.val).testLines ∧ tblFind (t.ks k.val).rawCheck tl = some (s.testCheck k.val) ∧
          t.fld (a 0x600) 8 2 = 0 ∧ (s.unspec = [] → Memory.wf s.stack = true → t.stackLine k.val tl = (s.testData k.val, false))) ∧
        (∃ t, exec (.rdRaw r k st) s = .next t ∧ t.fld (a 0x600) 8 2 = 0 ∧ t.fld (a 0x600) 4 2 = portCode st ∧
          (∀ j, j < 16 → t.reg (a (0x640 + 4 * j)) = BitVec.ofNat 32 (bitsOf (s.stackLine k.val tl).1 (32 * j) 32)) ∧
          ∀ c j, tblFind x.rawCheck tl = some c → j < 4 → t.reg (a (0x610 + 4 * j)) = BitVec.ofNat 32 (bitsOf c (32 * j) 32))) ∧
      (s.testOk k.val = false ∨ s.portFailed k.val = true → exec (.wrRaw r k) s = .next (s.setFld (a 0x600) 8 2 2) ∧
        exec (.rdRaw r k st) s = .next (s.setFld (a 0x600) 8 2 2))) ∧
    (s.isFw r = false ∨ s.keyUp k.val = false → exec (.scrubStart r k) s = .next s ∧ exec (.scrubStop r k) s = .next s ∧
      exec (.logClear r k) s = .next s ∧ exec (.wrRaw r k) s = .next s ∧ exec (.rdRaw r k st) s = .next s)

/-- Drawn from R379, R382 to R386, R388 to R393, R395: a message that stands first in its buffer makes its output serve its next message,
which goes onto the link that its route selects, or to the site's own units; the escape channel comes first, and an output with nothing
that may leave serves nothing; a message that its route makes unreachable is discarded and counted; a message that has waited leaves on
the escape channel; a flit in sequence carries the next slots of its module's message, and delivers it with its last slot, and one that
fails its CRC is counted and replayed, more than REPLAY_LIMIT of them retrain the link; a trained link is ACTIVE, or FAILED below
MIN_MODULES; a port that faces an empty site is ABSENT; a retrain ends ACTIVE, or FAILED when it is the third without gain; firmware
writes the route tables; a failed router takes its links with it. -/
def Obligations.SprueMoves : Prop :=
  ∀ (s : State) (x : Fin 100) (p : SPort) (m : NetMsg),
    let settled : Prop := ∀ h ∈ s.sprue, s.mustEscape h.x h.m = false
    (∀ (i : RPort) (o : Out), hasSite s.build x.val = true → m.fits = true → settled → s.spHead x.val i m.vn = some ⟨x.val, i, m⟩ →
      s.route x.val m = o →
      (∀ h, o ≠ .none → s.spNext x.val o = some h → ∃ t, exec (.sprueMessage x i m) s = .next t ∧ t.sprue = s.sprue.erase h ∧
        (∀ q y, o = .dir q → facing x.val q = some y → t.wires = s.wires ++ [{ x := y, p := opposite q, fx := x.val, fp := h.p, m := h.m }]) ∧
        (o = .here → t.wires = s.wires)) ∧
      (o ≠ .none → s.spNext x.val o = none → ∃ t, exec (.sprueMessage x i m) s = .next t ∧ t.sprue = s.sprue ∧ t.wires = s.wires) ∧
      (o = .none → ∃ t, exec (.sprueMessage x i m) s = .next t ∧ t.sprue = s.sprue.erase ⟨x.val, i, m⟩ ∧ t.wires = s.wires ∧
        t.reg (aSp 0xC) = BitVec.ofNat 32 (min ((s.reg (aSp 0xC)).toNat + 1) (2 ^ 32 - 1)))) ∧
    (∀ (q : SPort) (y : Nat), hasSite s.build x.val = true → m.fits = true → s.sprue = [] → s.route x.val m = .dir q →
      facing x.val q = some y → s.spRoom x.val m (.dir q) = true → ∃ t, exec (.sprueMessage x .loc m) s = .next t ∧ t.sprue = [] ∧
        t.wires = s.wires ++ [{ x := y, p := opposite q, fx := x.val, fp := .loc, m := m }]) ∧
    (∀ o h, s.spOffer x.val o .esc = some h → s.spNext x.val o = some h) ∧
    (∀ (i : RPort), settled → s.spHead x.val i m.vn = some ⟨x.val, i, m⟩ → m.vn ≠ .esc → (∀ h ∈ s.sprue, h.x = x.val → h.m.vn ≠ .esc) →
      let e : NetMsg := { m with vn := .esc }
      (∀ q y, s.route x.val e = .dir q → facing x.val q = some y → s.spRoom x.val e (.dir q) = true →
        ∃ t, exec (.escapeMove x i m.vn) s = .next t ∧ t.sprue = s.sprue.erase ⟨x.val, i, m⟩ ∧
          t.wires = s.wires ++ [{ x := y, p := opposite q, fx := x.val, fp := i, m := e }]) ∧
      (∀ q, s.route x.val e = .dir q → s.spRoom x.val e (.dir q) = false → exec (.escapeMove x i m.vn) s = .next s)) ∧
    (∀ (j : Fin 6) (w : Wire) (n : Fin 32) (k : Nat), s.portActive x.val p = true → j.val < (s.link x.val p).modules → s.wires = [w] →
      w.x = x.val → w.p = p → (w.j = none ∨ w.j = some j.val) → settled → s.mustEscape x.val w.m = false →
      let seq := tblGet s.flitSeq 0 (flitKey x.val p j.val)
      let left := msgSlots w.m - w.got
      (0 < n.val → left ≤ n.val → ∃ t, exec (.flit x p j true ⟨seq, n⟩ k) s = .next t ∧ t.wires = [] ∧
        t.sprue = s.sprue ++ [⟨x.val, .nb p, w.m⟩] ∧ tblGet t.flitSeq 0 (flitKey x.val p j.val) = seq + 1) ∧
      (0 < n.val → n.val < left → ∃ t, exec (.flit x p j true ⟨seq, n⟩ k) s = .next t ∧
        t.wires = [{ w with j := some j.val, got := w.got + n.val }] ∧ t.sprue = s.sprue) ∧
      (∀ q, q ≠ seq → exec (.flit x p j true ⟨q, n⟩ k) s = .next s) ∧
      (k ≤ s.replayLimit → ∃ t, exec (.flit x p j false ⟨seq, n⟩ k) s = .next t ∧ t.wires = [w] ∧ t.sprue = s.sprue ∧
        t.reg (aRtrP x.val 0x20 p) = BitVec.ofNat 32 (min ((s.reg (aRtrP x.val 0x20 p)).toNat + 1) (2 ^ 32 - 1)) ∧
        t.link x.val p = s.link x.val p) ∧
      (s.replayLimit < k → (facing x.val p).isSome = true → ∃ t, exec (.flit x p j false ⟨seq, n⟩ k) s = .next t ∧
        (t.link x.val p).st = .retrain)) ∧
    (∀ (n : Fin 7) (sp : BitVec 8), (s.link x.val p).st = .training → s.linkHas x.val p = true →
      (s.minModules ≤ n.val → ∃ t, exec (.linkTrained x p n sp) s = .next t ∧ t.link x.val p = ⟨.active, n.val, sp.toNat, 0⟩) ∧
      (n.val < s.minModules → ∃ t, exec (.linkTrained x p n sp) s = .next t ∧ (t.link x.val p).st = .failed)) ∧
    ((s.link x.val p).st = .training → ∃ t, exec (.linkAbsent x p) s = .next t ∧ (t.link x.val p).st = .absent) ∧
    (∀ (n : Fin 7) (sp : BitVec 8) (g sb : Bool), (s.link x.val p).st = .retrain → (facing x.val p).isSome = true →
      let l := s.link x.val p
      let barren := if n.val < l.modules ∨ g = false then l.barren + 1 else 0
      (s.minModules ≤ n.val → barren < 3 → ∃ t, exec (.retrainEnd x p n sp g sb) s = .next t ∧
        t.link x.val p = ⟨.active, n.val, sp.toNat, barren⟩) ∧
      ((n.val < s.minModules ∨ 3 ≤ barren) → ∃ t, exec (.retrainEnd x p n sp g sb) s = .next t ∧ (t.link x.val p).st = .failed)) ∧
    (∀ (r : Requester) (d : Fin 100) (pg : Page) (v : Reg), hasSite s.build x.val = true →
      (s.isFw r = true → ∃ t, exec (.spRoute r x d pg v) s = .next t ∧
        t.reg (aRtr x.val (0x4000 + 4 * d.val)) = pageWrite pg (s.reg (aRtr x.val (0x4000 + 4 * d.val))) v 0x77 ∧ t.wires = s.wires) ∧
      (s.isFw r = false → exec (.spRoute r x d pg v) s = .next s)) ∧
    (hasSite s.build x.val = true → s.linkHas x.val p = true → (facing x.val p).isSome = true →
      ∃ t, exec (.routerFailed x) s = .next t ∧ (t.link x.val p).st = .failed)

/-! ## Gates, slots and capacity -/

/-- Drawn from R448, R456, R459 to R465, R469, R470, Table 19.5: a link that reaches L0 after a retrain is up with its link's properties
and its tags, one that retrains is counted, one that goes down quarantines its tags and suspends its LDs; resets of a head clear Bus
Master Enable and the decoders; master-enable, FLR and power states suspend an LD's queues with their cause, and end it; a Commit checks
what the host wrote and commits or shows an error; IDE streams fail and are programmed again; an MSI-X message that nothing holds goes;
an MCTP message of a supported type reaches the active quoin's cores. -/
def Obligations.GatesAndDevices : Prop :=
  ∀ (s : State) (g : Fin 8) (h : Fin 128), h.val / 16 = g.val →
    let x := s.gate g.val
    let d := s.hd h.val
    let causes (t : State) (h : Nat) : List Nat := (t.hd h).order
    (∀ l, s.gateIn g.val = true → x.retraining = true → ∃ t, exec (.linkL0 g l) s = .next t ∧ (t.gate g.val).up = true ∧
      (t.gate g.val).retraining = false ∧ (t.gate g.val).info = l ∧ (t.gate g.val).tags = x.tags) ∧
    (x.up = true → x.retraining = false → ∃ t, exec (.linkRetrain g) s = .next t ∧ (t.gate g.val).retraining = true ∧ (t.gate g.val).up = true ∧
      t.fld (aGt g.val 0x4018) 16 16 = min (s.fld (aGt g.val 0x4018) 16 16 + 1) 65535) ∧
    (x.up = true → x.retraining = true → ∃ t, exec (.retrainTimeout g) s = .next t ∧ (t.gate g.val).up = false ∧
      4 ∈ causes t h.val ∧ ∀ u ∈ (t.gate g.val).tags, u.2.left.isSome = true) ∧
    (x.up = true → ∃ t, exec (.linkDown g) s = .next t ∧ (t.gate g.val).up = false ∧ (t.gate g.val).retraining = false ∧
      4 ∈ causes t h.val ∧ ∀ u ∈ (t.gate g.val).tags, u.2.left.isSome = true) ∧
    (x.up = true → ∃ t, exec (.hotReset g) s = .next t ∧ (t.gate g.val).up = false ∧ (t.hd h.val).bme = false ∧ (t.hd h.val).decoders = [] ∧
      4 ∈ causes t h.val ∧ 5 ∈ causes t h.val ∧ 6 ∉ causes t h.val) ∧
    (s.gateIn g.val = true → s.pinsLive = true → ∃ t, exec (.fundamentalReset g) s = .next t ∧ (t.gate g.val).perst = true ∧
      (t.gate g.val).training = false ∧ (t.hd h.val).sanOnFlr = false ∧ (t.hd h.val).bme = false) ∧
    (s.gateIn g.val = true → s.pinsLive = true → exec (.perstNRelease g) s =
      .next (s.modGate g.val (fun x => { x with perst := false, training := x.training || (s.linkEnabled g.val && !x.up) }))) ∧
    (s.ldUp h.val = true →
      (d.bme = true → ∃ t, exec (.masterEnableClear h) s = .next t ∧ (t.hd h.val).bme = false ∧ (causes t h.val).getLast? = some 5) ∧
      (∃ t, exec (.masterEnableSet h) s = .next t ∧ (t.hd h.val).bme = true ∧ causes t h.val = d.order.filter (· ≠ 5)) ∧
      (d.flr = false → ∃ t, exec (.flr h) s = .next t ∧ (t.hd h.val).flr = true ∧ (causes t h.val).getLast? = some 6) ∧
      (d.d3hot = false → ∃ t, exec (.d3hot h) s = .next t ∧ (t.hd h.val).d3hot = true ∧ (causes t h.val).getLast? = some 7) ∧
      (∃ t, exec (.d0Return h) s = .next t ∧ (t.hd h.val).d3hot = false ∧ causes t h.val = d.order.filter (· ≠ 7)) ∧
      (∀ f : HdmFields,
        ((tblGet d.decoders {} f.ix.val).locked = true → exec (.hdmCommit h f) s = .next s) ∧
        ((tblGet d.decoders {} f.ix.val).locked = false → ∃ t y, exec (.hdmCommit h f) s = .next t ∧
          tblFind (t.hd h.val).decoders f.ix.val = some y ∧ (y.base, y.size, y.skip, y.ways, y.gran) = (f.base, f.size, f.skip, f.ways, f.gran) ∧
          y.committed = !y.err ∧ y.locked = (y.committed && f.lock) ∧
          (f.ways ∉ [1, 2, 4, 8] ∨ f.gran ∉ [256, 512, 1024, 2048, 4096] ∨ f.base % 2 ^ 28 ≠ 0 ∨ f.size % 2 ^ 28 ≠ 0 → y.err = true)))) ∧
    (d.flr = true → ∃ t, exec (.flrComplete h) s = .next t ∧ (t.hd h.val).flr = false ∧ (t.hd h.val).bme = false ∧ 5 ∈ causes t h.val ∧
      6 ∉ causes t h.val) ∧
    (d.flrSanitizing = true → d.flrExts = [] →
      exec (.flrSanitizeEnd h) s = .next (s.modHd h.val (fun d => { d with flrSanitizing := false }))) ∧
    (∃ t, exec .tagRelease s = .next t ∧ (t.gate g.val).tags = x.tags.filter (fun u => u.2.left != some 0)) ∧
    (∀ i : Fin 17, x.up = true → ∃ t, exec (.ideFail g i) s = .next t ∧ i.val ∈ (t.gate g.val).ideBad) ∧
    (∀ i : Fin 17, x.up = true → ∃ t, exec (.ideKeysProgrammed g i) s = .next t ∧ i.val ∉ (t.gate g.val).ideBad) ∧
    (∀ v : Fin 256, v.val ∈ d.msixHeld → d.msixHeldBack v.val = false → d.bme = true → d.flr = false → x.up = true → x.retraining = false →
      ∃ t, exec (.msiXSend h v) s = .next t ∧ v.val ∉ (t.hd h.val).msixHeld ∧
        tblGet (t.hd h.val).msixSent 0 v.val = tblGet d.msixSent 0 v.val + 1) ∧
    (∀ (b : MctpBinding) (ty : BitVec 8),
      (ty.toNat ∈ [0, 5, 6, 7, 8] → ∃ t, exec (.mctpMessage b ty) s = .next t ∧ t.regs = s.regs ∧ tblGet t.fw.mctp 0 ty.toNat = tblGet s.fw.mctp 0 ty.toNat + 1 ∧
        ∀ c : Fin 4, (s.core (coreNo s.active c.val)).wfi = false → (t.core (coreNo s.active c.val)).lines.getLsbD 10 = true) ∧
      (ty.toNat ∉ [0, 5, 6, 7, 8] → exec (.mctpMessage b ty) s = .next s))

/-- Drawn from R473 to R480, Table 20.1, Table 20.2: presence and button changes are counted, and a card that goes takes the link with
it; once a course Cokeben acts on a slot's presence and button; a slot goes from OFF through POWERING and TRAINING to ATTACHED, to FAULT
when it does not train or its link does not come back, through DETACH PENDING and DETACHING back to OFF; LINK_EN enters and leaves
Detect. -/
def Obligations.SlotSequences : Prop :=
  ∀ (s : State) (g : Fin 8), s.gateIn g.val = true →
    let x := s.gate g.val
    let st (t : State) : Nat := t.slotState g.val
    (∀ p, s.pinsLive = true → x.prsnt ≠ p → ∃ t, exec (.prsntChange g p) s = .next t ∧ (t.gate g.val).prsnt = p ∧
      (t.gate g.val).prsntCount = (x.prsntCount + 1) % 256 ∧
      (p = false → st s ≠ 0 → t.linkEnabled g.val = false ∧ (t.gate g.val).up = false)) ∧
    (s.pinsLive = true → exec (.attnPress g) s = .next (s.modGate g.val (fun x => { x with attnCount := (x.attnCount + 1) % 256 }))) ∧
    (s.fw.scanDue = true → (∀ k, k < 8 → k ≠ g.val → s.gateIn k = true →
        (s.gate k).prsnt = true ∧ s.slotState k ≠ 0 ∧ (s.gate k).attnCount = (s.gate k).seenAttn ∧ (s.gate k).wantAttach = false) →
      ∃ t, exec .slotScan s = .next t ∧ t.fw.scanDue = false ∧ (x.prsnt = false → st t = 0) ∧ (x.prsnt = true → st s = 0 → st t = 1) ∧
        (x.prsntCount ≠ x.seenPrsnt → st s ≠ 0 → st t = 0) ∧
        (x.prsnt = true → x.prsntCount = x.seenPrsnt → x.attnCount ≠ x.seenAttn →
          (st s = 1 → s.sweptFor g.val = true → st t = 2) ∧ (st s = 4 → st t = 5) ∧ (st s = 5 → st t = 4) ∧ (st s = 7 → st t = 1))) ∧
    (∀ l, x.training = true → x.retraining = false → st s = 3 → s.sweptFor g.val = true → ∃ t, exec (.linkL0 g l) s = .next t ∧ st t = 4 ∧
      (t.gate g.val).up = true ∧ 16 * g.val ∈ t.attached) ∧
    (x.wantAttach = true → s.sweptFor g.val = true → x.up = false → st s = 1 → ∃ t, exec (.attach g) s = .next t ∧ st t = 2 ∧
      (t.gate g.val).wantAttach = false) ∧
    (x.wantAttach = true → s.sweptFor g.val = true → x.up = true → st s = 3 → ∃ t, exec (.attach g) s = .next t ∧ st t = 4 ∧
      (t.gate g.val).wantAttach = false ∧ ∀ h ∈ s.presented g.val, h ∈ t.attached) ∧
    (st s = 2 → ∃ t, exec (.poweringTimeout g) s = .next t ∧ st t = 3 ∧ t.linkEnabled g.val = true) ∧
    (st s = 3 → x.up = false → x.perst = false → ∃ t, exec (.trainingTimeout g) s = .next t ∧ st t = 7 ∧ t.linkEnabled g.val = false) ∧
    (st s = 4 → x.up = false → x.dropped = true → ∃ t, exec (.linkReturnTimeout g) s = .next t ∧ st t = 7 ∧ (t.gate g.val).dropped = false) ∧
    (st s = 5 → ∃ t, exec (.detachPendingTimeout g) s = .next t ∧ st t = 6) ∧
    (st s = 6 → x.waitTags = false → x.releasing = false → ∃ t, exec (.detach g) s = .next t ∧ (t.gate g.val).waitTags = true ∧
      ∀ i, i < 16 → 4 ∈ (t.hd (16 * g.val + i)).order) ∧
    (x.waitTags = true → ∃ t, exec (.releaseSweep g) s = .next t ∧ (t.gate g.val).waitTags = false ∧ (t.gate g.val).releasing = true) ∧
    (x.releasing = true → (∀ k ∈ s.keysUp, s.releaseDone k g.val = true) → ∃ t, exec (.releaseSweepEnd g) s = .next t ∧ st t = 1 ∧
      t.linkEnabled g.val = false) ∧
    (∀ (r : Requester) p v,
      let w := pageWrite p (s.reg (aSlot g.val)) v 0x3F
      (s.isFw r = false → exec (.linkEn r g p v) s = .next s) ∧
      (s.isFw r = true → s.linkEnabled g.val = false → w.getLsbD 1 = true → ∃ t, exec (.linkEn r g p v) s = .next t ∧
        t.linkEnabled g.val = true ∧ (t.gate g.val).training = (!x.perst && !x.up)) ∧
      (s.isFw r = true → s.linkEnabled g.val = true → w.getLsbD 1 = false → ∃ t, exec (.linkEn r g p v) s = .next t ∧
        t.linkEnabled g.val = false ∧ (t.gate g.val).training = false ∧ (t.gate g.val).up = false) ∧
      (s.isFw r = true → w.getLsbD 1 = s.linkEnabled g.val → exec (.linkEn r g p v) s = .next (s.setReg (aSlot g.val) w)))

/-- Drawn from R246 to R257, R259, R260, Table 10.5: the FM API commands answer what the build, the regions and the block states are, and
change nothing else; an Add of each policy carves its runs of FREE blocks, or names the extents of a tag, and offers them in one event,
or answers that its input is invalid or that resources are exhausted; a response of the LD accepts for the next boundary what it names
and gives back the rest, and its mailbox takes no other command before (log entry 97); a release is forced, asked for, an offer
withdrawn, or made by the host; a region's class changes only while all its blocks are FREE; the last zeroing write of an extent that its
keystones serve leaves its lines zero. -/
def Obligations.CapacityCommands : Prop :=
  ∀ (s : State) (h : Fin 128),
    let hd := h.val
    let ok (t : State) (l : List Nat) : Prop := t = { s with fw := t.fw } ∧ t.fw.resp = .success l
    let no (t : State) (r : Resp) : Prop := t = { s with fw := t.fw } ∧ t.fw.resp = r
    let used := [ExtSt.offered, .granted, .releasing, .quiescing, .sanitizing].map s.blocksIn
    let free := (s.hd hd).respDue = none
    (∃ t, exec .getDcdInfo s = .next t ∧ ok t [128, 8, 2 ^ 28, buildBlocks s.build * 2 ^ 28]) ∧
    (∃ t, exec (.getHostDcRegionConfiguration h) s = .next t ∧ ok t s.regionConfig) ∧
    (∃ t, exec (.getDcdExtentLists h) s = .next t ∧ ok t (s.extentList hd)) ∧
    (∃ t, exec .getRegionPlacement s = .next t ∧
      ok t ((s.reg 0x24008).toNat :: (buildBlocks s.build - used.foldl (· + ·) 0) :: used)) ∧
    (∀ b z, ∃ t, exec (.setDcRegionConfiguration h b z) s = .next t ∧ no t (if b = 2 ^ 28 ∧ z = true then .success [] else .invalidInput)) ∧
    (free → exec (.getDynamicCapacityConfiguration h) s = .next (s.mboxAnswer hd (.success s.regionConfig)) ∧
      exec (.getDynamicCapacityExtentList h) s = .next (s.mboxAnswer hd (.success
        ((s.extents.filter (fun e => e.2.holders.contains hd)).flatMap (fun e => [e.2.first * 2 ^ 28, e.2.len * 2 ^ 28, e.2.tag]))))) ∧
    ((s.hd hd).respDue.isSome = true → ∀ firsts first, exec (.getDynamicCapacityConfiguration h) s = .next s ∧
      exec (.getDynamicCapacityExtentList h) s = .next s ∧ exec (.addDynamicCapacityResponse h firsts) s = .next s ∧
      exec (.releaseDynamicCapacity h first) s = .next s) ∧
    (∀ (d : Fin 8) (n tag : Nat),
      let carved (a : AddReq) (runs : List (Nat × Nat)) : Prop := s.offered hd + runs.length ≤ 64 →
        ∃ t ids, exec (.initiateDynamicCapacityAdd h a) s = .next t ∧ t.fw.resp = .success ids ∧ ids.length = runs.length ∧
          (t.hd hd).events = (s.hd hd).events ++ [.add ids] ∧
          (∀ q ∈ ids.zip runs, tblFind t.extents q.1 = some { first := q.2.1, len := q.2.2, tag := tag, offers := [hd] }) ∧
          (∀ e x, tblFind s.extents e = some x → tblFind t.extents e = some x)
      let turned (a : AddReq) (r : Resp) : Prop := ∃ t, exec (.initiateDynamicCapacityAdd h a) s = .next t ∧ no t r
      let l := s.freeOrder d.val
      (n = 0 → turned (.free d n tag) .invalidInput ∧ turned (.contiguous d n tag) .invalidInput) ∧
      (0 < n → n ≤ l.length → carved (.free d n tag) (s.gatherRuns (l.take n))) ∧
      (l.length < n → turned (.free d n tag) .exhausted) ∧
      (0 < n → n ≤ 256 → (s.nearSoon d.val = true → n ≤ 12) →
        (∀ b, s.freeRun d.val n = some b → carved (.contiguous d n tag) [(b, n)]) ∧
        (s.freeRun d.val n = none → turned (.contiguous d n tag) .exhausted)) ∧
      (∀ rs, rs ≠ [] → (∀ q ∈ rs, s.runOk q.1 q.2 = true ∧ ∀ i, i < q.2 → s.blockFree (q.1 + i) = true) →
        (rs.flatMap (fun r => (List.range r.2).map (· + r.1))).Nodup →
        carved (.prescriptive rs tag) rs ∧ (64 < s.offered hd + rs.length → turned (.prescriptive rs tag) .exhausted)) ∧
      (∀ rs q, q ∈ rs → (s.runOk q.1 q.2 = false ∨ ∃ i, i < q.2 ∧ s.blockFree (q.1 + i) = false) → turned (.prescriptive rs tag) .invalidInput) ∧
      (∀ e x, s.extents = [(e, x)] → x.tag = tag → x.st = .granted → hd ∉ x.holders → hd ∉ x.offers → hd ∉ x.join → s.offered hd < 64 →
        ∃ t, exec (.initiateDynamicCapacityAdd h (.shared tag)) s = .next t ∧ t.extents = [(e, { x with offers := x.offers ++ [hd] })] ∧
          (t.hd hd).events = (s.hd hd).events ++ [.add [e]] ∧ t.fw.resp = .success [e]) ∧
      (s.tagged tag = [] → turned (.shared tag) .invalidInput)) ∧
    (∀ e x, s.extAt x.first = some (e, x) → x.st ≠ .quiescing → x.st ≠ .sanitizing →
      (x.heldBy hd = true →
        (∃ t, exec (.initiateDynamicCapacityRelease h x.first true) s = .next t ∧
          tblFind t.extents e = some { x with leave := x.leave ++ [hd] } ∧ t.fw.resp = .success []) ∧
        (∃ t, exec (.initiateDynamicCapacityRelease h x.first false) s = .next t ∧
          tblFind t.extents e = some { x with asked := setIns x.asked hd } ∧
          (t.hd hd).events = (s.hd hd).events ++ [.release e] ∧ t.fw.resp = .success []) ∧
        (free → ∃ t, exec (.releaseDynamicCapacity h x.first) s = .next t ∧ tblFind t.extents e = some { x with leave := x.leave ++ [hd] } ∧
          (t.hd hd).mbox = .success [])) ∧
      (x.heldBy hd = false → (free → exec (.releaseDynamicCapacity h x.first) s = .next (s.mboxAnswer hd .invalidInput)) ∧
        (hd ∉ x.offers → ∀ f, exec (.initiateDynamicCapacityRelease h x.first f) s = .next (s.answer .invalidInput)) ∧
        (x.offers = [hd] → x.st = .offered → s.extents = [(e, x)] → ∀ f, ∃ t, exec (.initiateDynamicCapacityRelease h x.first f) s = .next t ∧
          t.extents = [] ∧ t.fw.resp = .success []))) ∧
    (∀ first, s.extAt first = none → (∀ f, exec (.initiateDynamicCapacityRelease h first f) s = .next (s.answer .invalidInput)) ∧
      (free → exec (.releaseDynamicCapacity h first) s = .next (s.mboxAnswer hd .invalidInput))) ∧
    (∀ e x rest, free → (s.hd hd).events = .add [e] :: rest → tblFind s.extents e = some x → x.offers.contains hd = true →
      (s.extents.countP (fun e => e.2.heldBy hd) < 512 → ∃ t, exec (.addDynamicCapacityResponse h [x.first]) s = .next t ∧
        tblFind t.extents e = some { x with join := x.join ++ [hd], offers := setDel x.offers hd } ∧
        (t.hd hd).events = rest ∧ (t.hd hd).respDue = some [e] ∧ (t.hd hd).mbox = .none) ∧
      (s.extents.countP (fun e => e.2.heldBy hd) ≤ 512 → s.extents = [(e, x)] → x.st = .offered → x.offers = [hd] →
        ∃ t, exec (.addDynamicCapacityResponse h []) s = .next t ∧ t.extents = [] ∧ (t.hd hd).events = rest ∧ (t.hd hd).respDue = some []) ∧
      (∀ first, first ≠ x.first → exec (.addDynamicCapacityResponse h [first]) s = .next (s.mboxAnswer hd .invalidInput))) ∧
    (free → (s.hd hd).events = [] → ∀ l, exec (.addDynamicCapacityResponse h l) s = .next (s.mboxAnswer hd .invalidInput)) ∧
    (∀ (d : Fin 8) near,
      let old := tblGet s.rwcBuf (s.reg 0x24008) 0x24008
      (d.val < 7 → (∀ b ∈ s.regionBlocks d.val, s.blockFree b = true) → s.tb.running = true →
        ∃ t, exec (.setRegionPlacement d near) s = .next t ∧ t.reg 0x24008 = s.reg 0x24008 ∧ d.val ∈ t.placeFm ∧
          tblFind t.rwcBuf 0x24008 = some (setBits old d.val 1 (b2n near)) ∧ t.fw.resp = .success []) ∧
      (d.val < 7 → (∀ b ∈ s.regionBlocks d.val, s.blockFree b = true) → s.tb.running = false →
        ∃ t, exec (.setRegionPlacement d near) s = .next t ∧ t.reg 0x24008 = setBits old d.val 1 (b2n near) ∧ t.fw.resp = .success []) ∧
      ((d.val = 7 ∨ ∃ b ∈ s.regionBlocks d.val, s.blockFree b = false) →
        ∃ t, exec (.setRegionPlacement d near) s = .next t ∧ no t .invalidInput)) ∧
    (∀ e x, tblFind s.extents e = some x → x.st = .sanitizing → x.ended = false → s.served e x = true →
      ∃ t, exec (.sanitizeEnd e) s = .next t ∧ tblFind t.extents e = some { x with ended := true, cursor := (x.first + x.len) * 2 ^ 28 / 64 } ∧
        ∀ k a, a < 2 ^ 36 → x.has (s.poolUnmap k a / 64) = true → memGet t.stack (2 ^ 36 * k + a) = 0)

/-! ## Firmware, faults, the mark log and resets -/

/-- Drawn from R485 to R492, R494, R495, R497, Table 21.3, Table 21.6, Table 21.8: boot makes the lowest quoin that passed its self-test
active, and waits for an image at power-up or where no slot holds one; the CCI commands report, transfer and activate images; SPDM names
the active quoin, measures it and begins a session; a command of a host's mailbox ends with its RESULT and BUSY 0; beats, core release,
inter-core interrupts and HANDOVER act on their own quoin. -/
def Obligations.FirmwareCommands : Prop :=
  ∀ (s : State),
    (∀ (passed : BitVec 4) (a : Nat), s.rst.phase = .none → s.stepEnded 2 = true → s.stepEnded 3 = false → s.rst.badDies = [] →
      s.quoinsAll.find? (fun e => passed.getLsbD e) = some a →
      (s.rst.afterChip = false → ∃ t, exec (.boot true passed) s = .next t ∧ t.active = a ∧ t.fw.waitImage = true ∧
        (t.core (coreNo a 0)) = bootCore s.codeWindow ∧ (∀ e ∈ s.quoinsAll, (t.quoin e).passed = passed.getLsbD e)) ∧
      (s.rst.afterChip = true → s.fw.slot1.img = none → s.fw.slot2.img = none → ∃ t, exec (.boot false passed) s = .next t ∧ t.active = a ∧
        t.fw.waitImage = true ∧ (t.core (coreNo a 0)) = bootCore s.codeWindow)) ∧
    (∃ t, exec .getFwInfo s = .next t ∧ t = { s with fw := t.fw } ∧
      ∃ a b, t.fw.resp = .success [2, s.fw.run, if s.fw.slot1.pending then 1 else if s.fw.slot2.pending then 2 else 0,
        if 1 < buildEdies s.build then 1 else 0, a, b] ∧
        (∀ i, s.fw.slot1.img = some i → a = i.version.toNat) ∧ (∀ i, s.fw.slot2.img = some i → b = i.version.toNat)) ∧
    (∀ sl i last,
      let n := match sl with | FwSlot.slot1 => 1 | .slot2 => 2
      ((s.fw.run = n ∨ s.fw.waitImage = true ∧ n = 2) → ∃ t, exec (.transferFw sl i last) s = .next t ∧ t = { s with fw := t.fw } ∧
        t.fw.resp = .invalidInput) ∧
      (s.fw.run ≠ n → s.fw.waitImage = false ∨ n = 1 →
        (∃ t, exec (.transferFw sl i false) s = .next t ∧ t.fw.resp = .success [] ∧ (t.fwSlot n).img = none) ∧
        (∃ t, exec (.transferFw sl i true) s = .next t ∧
          (if s.imageValid s.active i = true then t.fw.resp = .success [] ∧ (t.fwSlot n).img = some i
           else t.fw.resp = .invalidInput ∧ (t.fwSlot n).img = none)))) ∧
    (∀ sl online,
      let n := match sl with | FwSlot.slot1 => 1 | .slot2 => 2
      ((s.fwSlot n).img.isSome = true →
        (∃ t, exec (.activateFw sl false) s = .next t ∧ t.fw.resp = .success [] ∧ t.fw.slot1.pending = (n == 1) ∧ t.fw.slot2.pending = (n == 2)) ∧
        (buildEdies s.build ≠ 1 → ∃ t, exec (.activateFw sl true) s = .next t ∧ t.fw.resp = .success [] ∧ t.fw.online = some n)) ∧
      (buildEdies s.build = 1 → exec (.activateFw sl true) s = .next (s.answer .unsupported)) ∧
      ((s.fwSlot n).img = none → (online = true → buildEdies s.build ≠ 1) →
        exec (.activateFw sl online) s = .next (s.answer .invalidInput))) ∧
    exec (.spdmRequest .getCertificate) s = .next (s.answer (.success [s.active])) ∧
    (∀ i, exec (.spdmRequest (.getMeasurement i)) s = .next (s.answer (s.measure i.val))) ∧
    (∃ t, exec (.spdmRequest .startSession) s = .next t ∧ t.fw.spdm = true ∧ t.fw.resp = .success []) ∧
    (∀ h : Fin 128,
      let ends (i : Instr) (r : Nat) (p : State → Prop) : Prop := ∃ t, exec i s = .next t ∧ (tblFind t.fw.mail h.val).isSome = false ∧
        t.fld (aHmb h.val 4) 0 8 = r ∧ p t
      let g := s.fld (aHmb h.val 0x100) 0 8
      (tblFind s.fw.mail h.val = some 1 → ends (.getInfo h) 0 (fun t => t.reg (aHmb h.val 0x200) = s.reg 4)) ∧
      (tblFind s.fw.mail h.val = some 2 →
        (8 ≤ g → ends (.slotAttach h) 0x21 (fun _ => True)) ∧
        (g < 8 → s.slotState g ≠ 1 → ends (.slotAttach h) 0x51 (fun _ => True)) ∧
        (g < 8 → s.slotState g = 1 → s.sweptFor g = true → ends (.slotAttach h) 0 (fun t => t.slotState g = 2)) ∧
        (g < 8 → s.slotState g = 1 → s.sweptFor g = false → ends (.slotAttach h) 0 (fun t => (t.gate g).wantAttach = true))) ∧
      (tblFind s.fw.mail h.val = some 3 →
        (8 ≤ g → ends (.slotDetach h) 0x21 (fun _ => True)) ∧
        (g < 8 → h.val / 16 ≠ g → ends (.slotDetach h) 0x50 (fun _ => True)) ∧
        (h.val / 16 = g → s.slotState g ≠ 4 → ends (.slotDetach h) 0x51 (fun _ => True)) ∧
        (h.val / 16 = g → s.slotState g = 4 → ends (.slotDetach h) 0 (fun t => t.slotState g = 5))) ∧
      (tblFind s.fw.mail h.val = some 4 →
        (8 ≤ g → ends (.slotQuery h) 0x21 (fun _ => True)) ∧
        (g < 8 → ends (.slotQuery h) 0 (fun t => t.fld (aHmb h.val 0x200) 0 8 = s.slotState g))) ∧
      (tblFind s.fw.mail h.val = none → exec (.getInfo h) s = .next s ∧ exec (.slotAttach h) s = .next s ∧ exec (.slotDetach h) s = .next s ∧
        exec (.slotQuery h) s = .next s)) ∧
    (∀ r, (s.isFw r = true → ∃ t, exec (.handover r) s = .next t ∧ (t.quoin s.active).handover = true ∧ t.cores = s.cores) ∧
      (s.isFw r = false → exec (.handover r) s = .next s)) ∧
    (∀ (e c : Fin 4) (d : Reg), hasE s.build e.val = true →
      (∃ t, exec (.beat e c d) s = .next t ∧ (t.quoin e.val).beats = (s.quoin e.val).beats ||| BitVec.ofNat 4 (bitsOf d 4 4) ∧ t.cores = s.cores) ∧
      (∀ i : Fin 4, d.getLsbD (4 + i.val) = true → (s.core (coreNo e.val i.val)).out = false → ∃ t, exec (.coreRelease e 0 d) s = .next t ∧
        t.core (coreNo e.val i.val) = bootCore (s.reg64 (aQnOf e.val 0x30010) / 8 * 8 % 2 ^ 41)) ∧
      (c ≠ 0 → exec (.coreRelease e c d) s = .next s) ∧
      (∀ i : Fin 4, d.getLsbD i.val = true → ∃ t, exec (.ipiRaise e c d) s = .next t ∧ (t.core (coreNo e.val i.val)).ipi = true) ∧
      (d.getLsbD c.val = true → exec (.ipiClear e c d) s = .next (s.modCore (coreNo e.val c.val) (fun k => { k with ipi := false }))) ∧
      (d.getLsbD c.val = false → exec (.ipiClear e c d) s = .next s))

/-- Drawn from R84, R337, R352, R500, R503, R505 to R508, R510, R512, R514: a fault event is counted, latched when it is the first of its
class, and queued where its reactions say so and the queue has room; in a reset it is lost; an error in a mould, a crucible cache or a
hearth marks its word or its line, or drops a clean line; a forced event of source 0 is counted; firmware clears the latch and moves the
queue's head within its bounds; a held event enters as an entry frees; FAULT_N's HOLD is set by firmware and cleared by the management or
the test port, and its pulse ends; a warned supply or a hot die brings chill; a trip that resets the chip asks for it; cool dies end
their cause; KS_OUT names its keystone for the next boundary. -/
def Obligations.FaultEvents : Prop :=
  ∀ (s : State) (r : Requester),
    let cnt (t : State) (n : Nat) : Nat := (t.reg (aFt (0x4100 + 4 * n))).toNat
    let react (n k : Nat) : Bool := (s.reg (aFt (0x4000 + 4 * n))).getLsbD k
    (∀ ev : FaultEv, srcAssigned ev.src.val = true → s.inReset = false → 72 ≤ ev.unit → ev.src.val ≠ 20 → ev.src.val ≠ 40 → s.fc.blkCru = [] →
      ∃ t, exec (.faultEvent { ev with err := .none } false) s = .next t ∧ cnt t ev.src.val = min (cnt s ev.src.val + 1) (2 ^ 32 - 1) ∧
        ((srcInfo ev.src.val).cls ≠ 0 → s.fld (aFt 0x10) 15 1 = 0 → t.fld (aFt 0x10) 15 1 = 1 ∧ t.fld (aFt 0x10) 0 6 = ev.src.val) ∧
        (s.fc.held = [] → react ev.src.val 0 = true → react ev.src.val 1 = false →
          s.ftQueued < 256 → s.reg64 (aFt 0x30) + 1 < 2 ^ 64 → t.reg64 (aFt 0x30) = s.reg64 (aFt 0x30) + 1)) ∧
    (s.inReset = true → ∀ ev : FaultEv, s.fc.blkCru = [] → ∃ t, exec (.faultEvent { ev with err := .none } false) s = .next t ∧ t = { s with fc := t.fc } ∧
      t.fc = { s.fc with blkCru := [] }) ∧
    (∀ (n : Fin 72) (w : Fin 1048576), hasCru s.build n.val = true → s.fc.blkCru = [] → react 1 2 = false →
      ∃ t, exec (.faultEvent { src := 1, unit := n.val, err := (.mould w) } false) s = .next t ∧ 2 ^ 20 * n.val + w.val ∈ t.mouldPoison ∧
        ∀ x ∈ t.mouldPoison, x ∈ s.mouldPoison ∨ x = 2 ^ 20 * n.val + w.val) ∧
    (∀ (n : Fin 72) (line : Nat) (w : Fin 8) (x : CLine), hasCru s.build n.val = true → s.fc.blkCru = [] → react 2 2 = false →
      tblFind (s.cru n.val).cache line = some x → x.st = .d →
      ∃ t, exec (.faultEvent { src := 2, unit := n.val, err := (.cacheWord line w) } false) s = .next t ∧
        tblFind (t.cru n.val).cache line = some { x with poison := x.poison ||| BitVec.ofNat 8 (2 ^ w.val) }) ∧
    (∀ (k : Fin 24) (sl : Nat) (x : HLine), hasKs s.build k.val = true → s.fc.blkCru = [] → tblFind (s.ks k.val).hearth sl = some x →
      (x.dirty = true → ∃ t, exec (.faultEvent { src := 8, unit := 0x200 + k.val, err := (.hearthLine sl) } false) s = .next t ∧
        tblFind (t.ks k.val).hearth sl = some { x with poison := true }) ∧
      (x.dirty = false → ∃ t, exec (.faultEvent { src := 8, unit := 0x200 + k.val, err := (.hearthLine sl) } false) s = .next t ∧
        (t.ks k.val).hearth = tblDel (s.ks k.val).hearth sl)) ∧
    ((s.isFw r = true ∨ r = .test) → s.inReset = false → s.fc.blkCru = [] → 72 ≤ s.fld (aFt 0x28) 0 10 →
      ∃ t, exec (.ftForce r 1) s = .next t ∧ cnt t 0 = min (cnt s 0 + 1) (2 ^ 32 - 1)) ∧
    (s.isFw r = false → r ≠ .test → ∀ v, exec (.ftForce r v) s = .next s) ∧
    (s.isFw r = true → ∃ t, exec (.clearFirst r) s = .next t ∧ t.reg64 (aFt 0x10) = 0 ∧ t.reg64 (aFt 0x18) = 0 ∧ t.crus = s.crus) ∧
    (s.isFw r = false → exec (.clearFirst r) s = .next s) ∧
    (∀ v : Word, s.isFw r = true → s.reg64 (aFt 0x38) ≤ v.toNat → v.toNat ≤ s.reg64 (aFt 0x30) →
      ∃ t, exec (.ftQHead r v) s = .next t ∧ t.reg64 (aFt 0x38) = v.toNat ∧ t.reg64 (aFt 0x30) = s.reg64 (aFt 0x30)) ∧
    (∀ v : Word, (s.isFw r = false ∨ v.toNat < s.reg64 (aFt 0x38) ∨ s.reg64 (aFt 0x30) < v.toNat) → exec (.ftQHead r v) s = .next s) ∧
    (∀ h rest, s.fc.held = h :: rest → s.ftQueued < 256 → s.reg64 (aFt 0x30) + 1 < 2 ^ 64 → ∃ t, exec .heldEventEntry s = .next t ∧
      t.fc = { s.fc with held := rest } ∧ t.reg64 (aFt 0x30) = s.reg64 (aFt 0x30) + 1) ∧
    (∀ p v,
      let w := pageWrite p (s.reg (aFt 8)) v 1
      ((s.isFw r = true ∧ w.getLsbD 0 = true ∨ r = .smbus ∨ r = .test) → ∃ t, exec (.ftPinHold r p v) s = .next t ∧ t.reg (aFt 8) = w) ∧
      (r ≠ .smbus → r ≠ .test → (s.isFw r = false ∨ w.getLsbD 0 = false) → exec (.ftPinHold r p v) s = .next s)) ∧
    (∃ t, exec .faultNPulseEnd s = .next t ∧ t.fc = { s.fc with pulse := false }) ∧
    (s.pinsLive = true → s.fc.warn = false → ∃ t, exec .pwrWarn s = .next t ∧ t.fc.warn = true ∧ t.fc.chill = true ∧ t.fc.cleanLeft = 8) ∧
    (s.pinsLive = true → exec .pwrWarnNHigh s = .next { s with fc := { s.fc with warn := false } }) ∧
    (∀ x : Fin 100, hasSite s.build x.val = true → s.fc.hot.contains x.val = false → ∃ t, exec (.thermHigh x) s = .next t ∧ t.fc.therm = true ∧
      t.fc.chill = true ∧ t.fc.cleanLeft = 8 ∧ x.val ∈ t.fc.hot) ∧
    (∀ x : Fin 100, hasSite s.build x.val = true → s.inReset = false → s.fc.chip = none → ∃ t, exec (.thermTrip x) s = .next t ∧ x.val ∈ t.fc.hot ∧
      (react 39 3 = true → t.fc.chip = some 39)) ∧
    (s.rst.phase ≠ .thermHold → ∃ t, exec .thermClear s = .next t ∧ t.fc = { s.fc with therm := false, hot := [] }) ∧
    (s.rst.phase = .thermHold → ∃ t, exec .thermClear s = .next t ∧ t.rst.phase = .none ∧ t.fc.therm = false ∧ t.fc.hot = [] ∧
      t.fc.chill = s.fc.warn) ∧
    (∀ k : Fin 24, hasKs s.build k.val = true → s.keyUp k.val = true → ∃ t, exec (.ksOut k) s = .next t ∧ k.val ∈ t.ksOut ∧
      t.reg 0x24004 = s.reg 0x24004)

/-- R525, R528, R529: an event like the last record merges into it, any other is the next record, and while the log is frozen neither
happens and it is counted; FREEZE and THAW bracket such a time; CLEAR writes its own record, or waits while the log is frozen. -/
def Obligations.MarkLogRecords : Prop :=
  ∀ (s : State) (r : Requester),
    let m := s.ml
    (s.mlWriter r = false → exec (.freeze r) s = .next s ∧ exec (.thaw r) s = .next s ∧ exec (.clear r) s = .next s) ∧
    (∀ x : MarkRec,
      let last := tblFind m.ring ((m.written - 1) % 4096)
      let merges : Prop := m.written ≠ 0 ∧ m.base ≤ m.written - 1 ∧ m.closed = false ∧
        last.any (fun l => l.code == x.code && l.cls == x.cls && l.unit == x.unit) = true
      (m.frozen = true → m.enter x = { m with missed := min (m.missed + 1) (2 ^ 32 - 1) }) ∧
      (∀ l, m.frozen = false → merges → last = some l →
        m.enter x = { m with ring := tblSet m.ring ((m.written - 1) % 4096) { l with rep := min (l.rep + 1) (2 ^ 32 - 1) }, lastTime := x.time }) ∧
      (m.frozen = false → ¬ merges →
        m.enter x = { m with ring := tblSet m.ring (m.written % 4096) x, written := m.written + 1, lastTime := x.time, closed := false })) ∧
    (s.mlWriter r = true → m.frozen = false → ∃ t, exec (.freeze r) s = .next t ∧ t.ml = { m with frozen := true, missed := 0, frozenCourses := 0 }) ∧
    (s.mlWriter r = true → m.frozen = true → ∃ t, exec (.freeze r) s = .next t ∧ t.ml = { m with frozenCourses := 0 }) ∧
    (s.mlWriter r = true → m.frozen = true → m.heldClear = false → m.missed = 0 → ∃ t, exec (.thaw r) s = .next t ∧ t.ml = { m with frozen := false, closed := true }) ∧
    (m.frozen = false → exec (.thaw r) s = .next s) ∧
    (s.mlWriter r = true → m.frozen = true → m.heldClear = false → m.missed ≠ 0 → ∃ t, exec (.thaw r) s = .next t ∧ t.ml.frozen = false ∧
      t.ml.closed = true ∧ (tblFind t.ml.ring (m.written % 4096)).map (fun x => (x.code, x.p0)) = some (2, m.missed % 2 ^ 32)) ∧
    (s.mlWriter r = true → m.frozen = true → exec (.clear r) s = .next { s with ml := { m with heldClear := true } }) ∧
    (s.mlWriter r = true → m.frozen = false → ∃ t, exec (.clear r) s = .next t ∧ t.ml.base = m.written ∧ t.ml.written = m.written + 1 ∧
      (tblFind t.ml.ring (m.written % 4096)).map (·.code) = some 1)

/-- Drawn from R545 to R548, R551 to R553, R555, R562, R563, R565, Table 25.1 to Table 25.5: PORST_N holds the set in reset, keeping the
stacks, and its rise begins bring-up; a chip reset by command or from its cause stops the set, and with nothing to drain the Reset phase
follows, which records its cause and keeps the stacks, the mark log and the extents; while a crucible has stores under way the Drain
phase lasts; a crucible that does not drain is declared dead; the links of waiting hosts go down; a failing supply starts the shutdown,
and recovers into a chip reset; a step of bring-up begins once, when the steps it needs have ended. -/
def Obligations.ResetsAndBringUp : Prop :=
  ∀ (s : State) (r : Requester),
    let still : Prop := s.openHostReqs = [] ∧ ∀ n ∈ buildCrus s.build, (s.cru n).drains = false ∧ (s.cru n).st ≠ .stopping
    let resets (t : State) (cause src : Nat) : Prop := t.rst.afterChip = true ∧ t.fld 0x38004 0 3 = cause ∧ t.fld 0x38004 8 6 = src ∧
      t.rst.phase = (if s.fc.hot = [] ∨ cause ≠ 3 then .none else .thermHold) ∧
      t.stack = s.stack ∧ t.ml = s.ml ∧ t.extents = s.extents ∧ t.tb.running = false ∧ ∀ n, (t.cru n).st = .off
    let may (r : Requester) : Prop := s.isFw r = true ∨ r = .smbus ∨ r = .test
    (∃ t, exec .porstNLow s = .next t ∧ t.rst.phase = .porst ∧ t.regs = [] ∧ t.stack = s.stack ∧ t.stackPoison = s.stackPoison ∧
      t.mould = [] ∧ t.code = [] ∧ t.rst.mark = s.rst.mark ∧ t.pending = s.pending ∧ t.build = s.build) ∧
    (s.rst.phase = .porst → exec .porstNRise s = .next { s with rst := { s.rst with phase := .none } }) ∧
    (∀ d : Reg, may r → s.rst.phase = .none → bitsOf d 8 8 = 0xC5 → bitsOf d 0 4 = 1 → still →
      ∃ t, exec (.chipResetCommand r d) s = .next t ∧ resets t 1 0) ∧
    (∀ d : Reg, (¬ may r ∨ bitsOf d 8 8 ≠ 0xC5 ∨ bitsOf d 0 4 ≠ 1 ∨ s.rst.phase ≠ .none) → exec (.chipResetCommand r d) s = .next s) ∧
    (∀ c, s.rst.phase = .none → s.causeThere c = true → still → ∃ t, exec (.chipReset c) s = .next t ∧ resets t (causeCode c) (causeSource c)) ∧
    (∀ c, s.rst.phase = .none → s.causeThere c = false → exec (.chipReset c) s = .next s) ∧
    (∀ c, s.rst.phase = .none → s.causeThere c = true → (∃ k ∈ buildCrus s.build, (s.cru k).drains = true ∧
        ∃ a ∈ s.outst, a.aid = k ∧ a.store = true) →
      ∃ t, exec (.chipReset c) s = .next t ∧ t.rst.phase = .drain (causeCode c) (causeSource c) ∧ t.rst.withheld = true) ∧
    (∀ (n : Fin 72) cause src, s.rst.phase = .drain cause src → s.drained n.val = false → n.val ∉ s.rst.deadDrain → hasCru s.build n.val = true →
      s.dead.contains n.val = false → (∃ k ∈ buildCrus s.build, k ≠ n.val ∧ s.drained k = false ∧ k ∉ s.rst.deadDrain) →
      ∃ t, exec (.drainTimeout n) s = .next t ∧ n.val ∈ t.rst.deadDrain ∧ n.val ∈ t.dead) ∧
    (s.rst.withheld = true → s.rst.steps.contains 8 = false → ∃ t, exec .chipResetLinkTimeout s = .next t ∧
      ∀ g, g < 8 → (s.gate g).up = true → (t.gate g).up = false) ∧
    (∀ cause src, s.pinsTaken = false → s.rst.phase = .drain cause src → s.rst.shutting = true →
      exec .pwrFailRecover s = .next { s with rst := { s.rst with recovered := true } }) ∧
    (s.pinsTaken = false → s.rst.phase = .none → still → ∃ t, exec .pwrFail s = .next t ∧ t.rst.phase = .shutdown ∧ t.rst.mark.isSome = true) ∧
    (s.pinsTaken = false → s.rst.phase = .shutdown → ∃ t, exec .pwrFailRecover s = .next t ∧ resets t 5 0) ∧
    (∀ (i : Fin 13) o, s.rst.phase = .none → (i.val ∈ s.rst.steps ∨ ∃ j ∈ stepNeeds i.val, s.stepEnded j = false) →
      exec (.bringupStep i o) s = .next s) ∧
    (∀ o, s.rst.phase = .none → 1 ∉ s.rst.steps → s.rst.afterChip = false →
      exec (.bringupStep 1 o) s = .next { s with rst := { s.rst with steps := setIns s.rst.steps 1 } }) ∧
    (∀ o, s.rst.phase = .none → 2 ∉ s.rst.steps → s.stepEnded 1 = true → ∃ t, exec (.bringupStep 2 o) s = .next t ∧ 2 ∈ t.rst.steps ∧
      ∀ e ∈ s.sprueLinks, (t.link e.1 e.2).st = .training) ∧
    (∀ o, s.rst.phase = .none → 4 ∉ s.rst.steps → s.stepEnded 2 = true → ∃ t, exec (.bringupStep 4 o) s = .next t ∧ 4 ∈ t.rst.steps ∧
      ∀ n ∈ buildCrus s.build, (s.cru n).st = .off → siteCru n ∉ s.rst.badDies → (t.cru n).st = .selftest ∧ (t.cru n).aclkOn = true) ∧
    (∀ o, s.rst.phase = .none → 7 ∈ s.rst.steps → s.rst.stopped = false → 8 ∉ s.rst.steps → s.rst.afterChip = false → s.rst.mark = none →
      ∃ t, exec (.bringupStep 8 o) s = .next t ∧ 8 ∈ t.rst.steps ∧ t.stack = [] ∧ t.fld 0x38008 16 1 = 1 ∧ t.reg64 0x20008 = s.foundation)
end

