-- ==== Sys2Proof/Laws/Data.lean ====
section
/-! SUPPORT. Tables, sets and byte memories: what is found after an entry or a byte is set, and that every operation on a byte memory
keeps its canonical form. -/

namespace Sys2Proof.Machine

open Sys2Proof

variable {α : Type}

/-! ## Tables -/

@[simp] theorem tblFind_tblSet_self (t : Tbl α) (k : Nat) (a : α) : tblFind (tblSet t k a) k = some a := by
  induction t with
  | nil => simp [tblSet, tblFind]
  | cons e t ih =>
    obtain ⟨j, b⟩ := e
    simp only [tblSet]
    split
    · simp [tblFind]
    · split
      · simp [tblFind]
      · simp_all [tblFind]

@[simp] theorem tblFind_tblSet_ne (t : Tbl α) (k i : Nat) (a : α) (h : i ≠ k) : tblFind (tblSet t k a) i = tblFind t i := by
  induction t with
  | nil => simp [tblSet, tblFind, Ne.symm h]
  | cons e t ih =>
    obtain ⟨j, b⟩ := e
    simp only [tblSet]
    split
    · subst_vars; simp [tblFind, Ne.symm h]
    · split
      · simp [tblFind, Ne.symm h]
      · simp [tblFind, ih]

@[simp] theorem tblGet_tblSet_self (t : Tbl α) (d : α) (k : Nat) (a : α) : tblGet (tblSet t k a) d k = a := by simp [tblGet]

@[simp] theorem tblGet_tblSet_ne (t : Tbl α) (d : α) (k i : Nat) (a : α) (h : i ≠ k) : tblGet (tblSet t k a) d i = tblGet t d i := by
  simp [tblGet, h]

theorem tblSet_tblSet_self (t : Tbl α) (k : Nat) (a b : α) : tblSet (tblSet t k a) k b = tblSet t k b := by
  induction t with
  | nil => simp [tblSet]
  | cons e t ih =>
    obtain ⟨j, c⟩ := e
    simp only [tblSet]
    split
    · simp [tblSet]
    · split
      · simp [tblSet]
      · rename_i h1 h2; simp [tblSet, h1, h2, ih]

/-! ## Byte memories -/

/-- The canonical form with every address at least `lo`. -/
def memAbove : Nat → Mem → Prop
  | _, [] => True
  | lo, (a, b) :: m => lo ≤ a ∧ b ≠ 0 ∧ memAbove (a + 1) m

theorem memAbove_mono {m : Mem} : ∀ {lo hi : Nat}, lo ≤ hi → memAbove hi m → memAbove lo m := by
  cases m with
  | nil => intros; trivial
  | cons e m => intro lo hi h hm; exact ⟨Nat.le_trans h hm.1, hm.2⟩

theorem wf_cons_iff (a : Nat) (b : Byte) (m : Mem) : Memory.wf ((a, b) :: m) = true ↔ b ≠ 0 ∧ memAbove (a + 1) m := by
  induction m generalizing a b with
  | nil => simp [Memory.wf, memAbove]
  | cons e m ih => obtain ⟨c, d⟩ := e; simp [Memory.wf, memAbove, ih, and_assoc, Nat.succ_le_iff]

theorem wf_iff_memAbove (m : Mem) : Memory.wf m = true ↔ memAbove 0 m := by
  cases m with
  | nil => simp [Memory.wf, memAbove]
  | cons e m => obtain ⟨a, b⟩ := e; simp [wf_cons_iff, memAbove]

theorem memGet_below {m : Mem} : ∀ {lo a : Nat}, memAbove lo m → a < lo → memGet m a = 0 := by
  induction m with
  | nil => intros; rfl
  | cons e m ih =>
    obtain ⟨j, b⟩ := e
    intro lo a h ha
    have hj : j ≠ a := by have := h.1; omega
    simp only [memGet, hj, if_false]
    exact ih (lo := j + 1) h.2.2 (by have := h.1; omega)

theorem memAbove_memSet {m : Mem} (a : Nat) (b : Byte) : ∀ {lo : Nat}, lo ≤ a → memAbove lo m → memAbove lo (memSet m a b) := by
  induction m with
  | nil =>
    intro lo h _
    simp only [memSet]
    split
    · trivial
    · exact ⟨h, by assumption, trivial⟩
  | cons e m ih =>
    obtain ⟨j, c⟩ := e
    intro lo h hm
    simp only [memSet]
    split
    · subst_vars
      split
      · exact memAbove_mono (by omega) hm.2.2
      · exact ⟨h, by assumption, hm.2.2⟩
    · split
      · split
        · exact hm
        · exact ⟨h, by assumption, by omega, hm.2.1, hm.2.2⟩
      · exact ⟨hm.1, hm.2.1, ih (by omega) hm.2.2⟩

/-- Writing a byte keeps the canonical form. -/
theorem wf_memSet (m : Mem) (a : Nat) (b : Byte) (h : Memory.wf m = true) : Memory.wf (memSet m a b) = true := by
  rw [wf_iff_memAbove] at *; exact memAbove_memSet a b (Nat.zero_le a) h

/-- Writing bytes keeps the canonical form. -/
theorem wf_memWrite (bs : List Byte) : ∀ (m : Mem) (a : Nat), Memory.wf m = true → Memory.wf (memWrite m a bs) = true := by
  induction bs with
  | nil => intro m a h; exact h
  | cons b bs ih => intro m a h; exact ih _ _ (wf_memSet m a b h)

/-- Writing a line keeps the canonical form. -/
theorem wf_memSetLine (m : Mem) (a : Nat) (d : LineData) (h : Memory.wf m = true) : Memory.wf (memSetLine m a d) = true :=
  wf_memWrite _ m a h

theorem memAbove_filter {m : Mem} (p : Host.Cell → Bool) : ∀ {lo : Nat}, memAbove lo m → memAbove lo (m.filter p) := by
  induction m with
  | nil => intros; trivial
  | cons e m ih =>
    obtain ⟨j, b⟩ := e
    intro lo h
    simp only [List.filter]
    split
    · exact ⟨h.1, h.2.1, ih h.2.2⟩
    · exact memAbove_mono (by have := h.1; omega) (ih h.2.2)

/-- Dropping cells keeps the canonical form. -/
theorem wf_filter (m : Mem) (p : Host.Cell → Bool) (h : Memory.wf m = true) : Memory.wf (m.filter p) = true := by
  rw [wf_iff_memAbove] at *; exact memAbove_filter p h

/-- Clearing a range keeps the canonical form. -/
theorem wf_memClear (m : Mem) (lo n : Nat) (h : Memory.wf m = true) : Memory.wf (memClear m lo n) = true := wf_filter m _ h

theorem memGet_memSet_above {m : Mem} (a : Nat) (b : Byte) : ∀ {lo : Nat}, lo ≤ a → memAbove lo m → memGet (memSet m a b) a = b := by
  induction m with
  | nil =>
    intro lo _ _
    simp only [memSet]
    split
    · subst_vars; rfl
    · simp [memGet]
  | cons e m ih =>
    obtain ⟨j, c⟩ := e
    intro lo h hm
    simp only [memSet]
    split
    · subst_vars
      split
      · subst_vars; exact memGet_below hm.2.2 (by omega)
      · simp [memGet]
    · split
      · split
        · subst_vars; exact memGet_below (lo := j) ⟨Nat.le_refl j, hm.2⟩ (by assumption)
        · simp [memGet]
      · rename_i h1 h2; simp [memGet, h1, ih (lo := j + 1) (by omega) hm.2.2]

/-- The byte just written is read back. -/
theorem memGet_memSet_self (m : Mem) (a : Nat) (b : Byte) (h : Memory.wf m = true) : memGet (memSet m a b) a = b := by
  rw [wf_iff_memAbove] at h; exact memGet_memSet_above a b (Nat.zero_le a) h

/-- Every other byte reads as before. -/
theorem memGet_memSet_ne (m : Mem) (a i : Nat) (b : Byte) (hi : i ≠ a) : memGet (memSet m a b) i = memGet m i := by
  induction m with
  | nil => simp only [memSet]; split <;> simp [memGet, Ne.symm hi]
  | cons e m ih =>
    obtain ⟨j, c⟩ := e
    simp only [memSet]
    split
    · subst_vars; split <;> simp [memGet, Ne.symm hi]
    · split
      · split <;> simp [memGet, Ne.symm hi]
      · simp [memGet, ih]

/-- Bytes outside the bytes written read as before. -/
theorem memGet_memWrite_outside (bs : List Byte) : ∀ (m : Mem) (a i : Nat), i < a ∨ a + bs.length ≤ i → memGet (memWrite m a bs) i = memGet m i := by
  induction bs with
  | nil => intros; rfl
  | cons b bs ih =>
    intro m a i h
    simp only [List.length_cons] at h
    rw [memWrite, ih _ _ _ (by omega), memGet_memSet_ne _ _ _ _ (by omega)]

/-- The bytes written are read back. -/
theorem memRead_memWrite (bs : List Byte) : ∀ (m : Mem) (a : Nat), Memory.wf m = true → memRead (memWrite m a bs) a bs.length = bs := by
  induction bs with
  | nil => intros; rfl
  | cons b bs ih =>
    intro m a h
    rw [memWrite, List.length_cons, memRead, ih _ _ (wf_memSet m a b h), memGet_memWrite_outside _ _ _ _ (by omega), memGet_memSet_self m a b h]

end Sys2Proof.Machine
end

