-- ==== Sys2Proof/Laws/State.lean ====
section
/-! SUPPORT. The named updates of the state: what each leaves unchanged, field by field and record by record, and what it sets. -/

namespace Sys2Proof.Machine

open Sys2Proof

/-- The queue of an updated state. -/
@[simp] theorem setPending_pending (s : State) (q : List Instr) : ({ s with pending := q } : State).pending = q := rfl

/-- What `setReg` leaves unchanged. -/
@[simp] theorem setReg_frame (s : State) (a : Nat) (v : Reg) :
    (s.setReg a v).build = s.build ∧ (s.setReg a v).rwcBuf = s.rwcBuf ∧ (s.setReg a v).reqs = s.reqs ∧
    (s.setReg a v).sumLast = s.sumLast ∧ (s.setReg a v).irqSent = s.irqSent ∧ (s.setReg a v).tb = s.tb ∧ (s.setReg a v).fc = s.fc ∧
    (s.setReg a v).ml = s.ml ∧ (s.setReg a v).crus = s.crus ∧ (s.setReg a v).ran = s.ran ∧ (s.setReg a v).cores = s.cores ∧
    (s.setReg a v).quoins = s.quoins ∧ (s.setReg a v).active = s.active ∧ (s.setReg a v).takeover = s.takeover ∧
    (s.setReg a v).takeLate = s.takeLate ∧ (s.setReg a v).mould = s.mould ∧ (s.setReg a v).mouldPoison = s.mouldPoison ∧
    (s.setReg a v).code = s.code ∧ (s.setReg a v).codePoison = s.codePoison ∧ (s.setReg a v).kss = s.kss ∧
    (s.setReg a v).stack = s.stack ∧ (s.setReg a v).stackPoison = s.stackPoison ∧ (s.setReg a v).net = s.net ∧
    (s.setReg a v).tags = s.tags ∧ (s.setReg a v).outst = s.outst ∧ (s.setReg a v).flasks = s.flasks ∧
    (s.setReg a v).streams = s.streams ∧ (s.setReg a v).pours = s.pours ∧ (s.setReg a v).paused = s.paused ∧
    (s.setReg a v).extents = s.extents ∧ (s.setReg a v).sanitizing = s.sanitizing ∧ (s.setReg a v).placeFm = s.placeFm ∧
    (s.setReg a v).unspec = s.unspec ∧ (s.setReg a v).queues = s.queues ∧ (s.setReg a v).hds = s.hds ∧
    (s.setReg a v).flaskPend = s.flaskPend ∧ (s.setReg a v).ladles = s.ladles ∧ (s.setReg a v).gates = s.gates ∧
    (s.setReg a v).links = s.links ∧ (s.setReg a v).sprue = s.sprue ∧ (s.setReg a v).wires = s.wires ∧ (s.setReg a v).spTurn = s.spTurn ∧
    (s.setReg a v).spFreed = s.spFreed ∧ (s.setReg a v).flitSeq = s.flitSeq ∧ (s.setReg a v).early = s.early ∧
    (s.setReg a v).sprueHeld = s.sprueHeld ∧ (s.setReg a v).fw = s.fw ∧ (s.setReg a v).rst = s.rst ∧ (s.setReg a v).taps = s.taps ∧
    (s.setReg a v).pinsTaken = s.pinsTaken ∧ (s.setReg a v).trstLow = s.trstLow ∧ (s.setReg a v).failoverLeft = s.failoverLeft ∧
    (s.setReg a v).ksOut = s.ksOut ∧ (s.setReg a v).ksOutLate = s.ksOutLate ∧ (s.setReg a v).dead = s.dead ∧
    (s.setReg a v).attached = s.attached ∧ (s.setReg a v).free = s.free ∧ (s.setReg a v).pending = s.pending ∧
    (∀ j, (s.setReg a v).cru j = s.cru j) ∧ (∀ j, (s.setReg a v).core j = s.core j) ∧ (∀ j, (s.setReg a v).quoin j = s.quoin j) ∧
    (∀ j, (s.setReg a v).ks j = s.ks j) ∧ (∀ j, (s.setReg a v).hq j = s.hq j) ∧ (∀ j, (s.setReg a v).hd j = s.hd j) ∧
    (∀ j, (s.setReg a v).ladle j = s.ladle j) ∧ (∀ j, (s.setReg a v).gate j = s.gate j) :=
  ⟨rfl, rfl, rfl, rfl, rfl, rfl, rfl, rfl, rfl, rfl, rfl, rfl, rfl, rfl, rfl, rfl, rfl, rfl, rfl, rfl, rfl, rfl, rfl, rfl, rfl, rfl, rfl,
    rfl, rfl, rfl, rfl, rfl, rfl, rfl, rfl, rfl, rfl, rfl, rfl, rfl, rfl, rfl, rfl, rfl, rfl, rfl, rfl, rfl, rfl, rfl, rfl, rfl, rfl,
    rfl, rfl, rfl, rfl, rfl, fun _ => rfl, fun _ => rfl, fun _ => rfl, fun _ => rfl, fun _ => rfl, fun _ => rfl, fun _ => rfl,
    fun _ => rfl⟩

/-- What `setReg` sets. -/
@[simp] theorem setReg_reg (s : State) (a : Nat) (v : Reg) : (s.setReg a v).reg a = v := tblGet_tblSet_self _ _ _ _
@[simp] theorem setReg_reg_ne (s : State) (a : Nat) (v : Reg) (j : Nat) (hj : j ≠ a) : (s.setReg a v).reg j = s.reg j :=
  tblGet_tblSet_ne _ _ _ _ _ hj

/-- What `setFld` leaves unchanged. -/
@[simp] theorem setFld_frame (s : State) (a lo w v : Nat) :
    (s.setFld a lo w v).build = s.build ∧ (s.setFld a lo w v).rwcBuf = s.rwcBuf ∧ (s.setFld a lo w v).reqs = s.reqs ∧
    (s.setFld a lo w v).sumLast = s.sumLast ∧ (s.setFld a lo w v).irqSent = s.irqSent ∧ (s.setFld a lo w v).tb = s.tb ∧
    (s.setFld a lo w v).fc = s.fc ∧ (s.setFld a lo w v).ml = s.ml ∧ (s.setFld a lo w v).crus = s.crus ∧ (s.setFld a lo w v).ran = s.ran ∧
    (s.setFld a lo w v).cores = s.cores ∧ (s.setFld a lo w v).quoins = s.quoins ∧ (s.setFld a lo w v).active = s.active ∧
    (s.setFld a lo w v).takeover = s.takeover ∧ (s.setFld a lo w v).takeLate = s.takeLate ∧ (s.setFld a lo w v).mould = s.mould ∧
    (s.setFld a lo w v).mouldPoison = s.mouldPoison ∧ (s.setFld a lo w v).code = s.code ∧ (s.setFld a lo w v).codePoison = s.codePoison ∧
    (s.setFld a lo w v).kss = s.kss ∧ (s.setFld a lo w v).stack = s.stack ∧ (s.setFld a lo w v).stackPoison = s.stackPoison ∧
    (s.setFld a lo w v).net = s.net ∧ (s.setFld a lo w v).tags = s.tags ∧ (s.setFld a lo w v).outst = s.outst ∧
    (s.setFld a lo w v).flasks = s.flasks ∧ (s.setFld a lo w v).streams = s.streams ∧ (s.setFld a lo w v).pours = s.pours ∧
    (s.setFld a lo w v).paused = s.paused ∧ (s.setFld a lo w v).extents = s.extents ∧ (s.setFld a lo w v).sanitizing = s.sanitizing ∧
    (s.setFld a lo w v).placeFm = s.placeFm ∧ (s.setFld a lo w v).unspec = s.unspec ∧ (s.setFld a lo w v).queues = s.queues ∧
    (s.setFld a lo w v).hds = s.hds ∧ (s.setFld a lo w v).flaskPend = s.flaskPend ∧ (s.setFld a lo w v).ladles = s.ladles ∧
    (s.setFld a lo w v).gates = s.gates ∧ (s.setFld a lo w v).links = s.links ∧ (s.setFld a lo w v).sprue = s.sprue ∧
    (s.setFld a lo w v).wires = s.wires ∧ (s.setFld a lo w v).spTurn = s.spTurn ∧ (s.setFld a lo w v).spFreed = s.spFreed ∧
    (s.setFld a lo w v).flitSeq = s.flitSeq ∧ (s.setFld a lo w v).early = s.early ∧ (s.setFld a lo w v).sprueHeld = s.sprueHeld ∧
    (s.setFld a lo w v).fw = s.fw ∧ (s.setFld a lo w v).rst = s.rst ∧ (s.setFld a lo w v).taps = s.taps ∧
    (s.setFld a lo w v).pinsTaken = s.pinsTaken ∧ (s.setFld a lo w v).trstLow = s.trstLow ∧
    (s.setFld a lo w v).failoverLeft = s.failoverLeft ∧ (s.setFld a lo w v).ksOut = s.ksOut ∧
    (s.setFld a lo w v).ksOutLate = s.ksOutLate ∧ (s.setFld a lo w v).dead = s.dead ∧ (s.setFld a lo w v).attached = s.attached ∧
    (s.setFld a lo w v).free = s.free ∧ (s.setFld a lo w v).pending = s.pending ∧ (∀ j, (s.setFld a lo w v).cru j = s.cru j) ∧
    (∀ j, (s.setFld a lo w v).core j = s.core j) ∧ (∀ j, (s.setFld a lo w v).quoin j = s.quoin j) ∧
    (∀ j, (s.setFld a lo w v).ks j = s.ks j) ∧ (∀ j, (s.setFld a lo w v).hq j = s.hq j) ∧ (∀ j, (s.setFld a lo w v).hd j = s.hd j) ∧
    (∀ j, (s.setFld a lo w v).ladle j = s.ladle j) ∧ (∀ j, (s.setFld a lo w v).gate j = s.gate j) :=
  ⟨rfl, rfl, rfl, rfl, rfl, rfl, rfl, rfl, rfl, rfl, rfl, rfl, rfl, rfl, rfl, rfl, rfl, rfl, rfl, rfl, rfl, rfl, rfl, rfl, rfl, rfl, rfl,
    rfl, rfl, rfl, rfl, rfl, rfl, rfl, rfl, rfl, rfl, rfl, rfl, rfl, rfl, rfl, rfl, rfl, rfl, rfl, rfl, rfl, rfl, rfl, rfl, rfl, rfl,
    rfl, rfl, rfl, rfl, rfl, fun _ => rfl, fun _ => rfl, fun _ => rfl, fun _ => rfl, fun _ => rfl, fun _ => rfl, fun _ => rfl,
    fun _ => rfl⟩

/-- What `setReg64` leaves unchanged. -/
@[simp] theorem setReg64_frame (s : State) (a v : Nat) :
    (s.setReg64 a v).build = s.build ∧ (s.setReg64 a v).rwcBuf = s.rwcBuf ∧ (s.setReg64 a v).reqs = s.reqs ∧
    (s.setReg64 a v).sumLast = s.sumLast ∧ (s.setReg64 a v).irqSent = s.irqSent ∧ (s.setReg64 a v).tb = s.tb ∧
    (s.setReg64 a v).fc = s.fc ∧ (s.setReg64 a v).ml = s.ml ∧ (s.setReg64 a v).crus = s.crus ∧ (s.setReg64 a v).ran = s.ran ∧
    (s.setReg64 a v).cores = s.cores ∧ (s.setReg64 a v).quoins = s.quoins ∧ (s.setReg64 a v).active = s.active ∧
    (s.setReg64 a v).takeover = s.takeover ∧ (s.setReg64 a v).takeLate = s.takeLate ∧ (s.setReg64 a v).mould = s.mould ∧
    (s.setReg64 a v).mouldPoison = s.mouldPoison ∧ (s.setReg64 a v).code = s.code ∧ (s.setReg64 a v).codePoison = s.codePoison ∧
    (s.setReg64 a v).kss = s.kss ∧ (s.setReg64 a v).stack = s.stack ∧ (s.setReg64 a v).stackPoison = s.stackPoison ∧
    (s.setReg64 a v).net = s.net ∧ (s.setReg64 a v).tags = s.tags ∧ (s.setReg64 a v).outst = s.outst ∧
    (s.setReg64 a v).flasks = s.flasks ∧ (s.setReg64 a v).streams = s.streams ∧ (s.setReg64 a v).pours = s.pours ∧
    (s.setReg64 a v).paused = s.paused ∧ (s.setReg64 a v).extents = s.extents ∧ (s.setReg64 a v).sanitizing = s.sanitizing ∧
    (s.setReg64 a v).placeFm = s.placeFm ∧ (s.setReg64 a v).unspec = s.unspec ∧ (s.setReg64 a v).queues = s.queues ∧
    (s.setReg64 a v).hds = s.hds ∧ (s.setReg64 a v).flaskPend = s.flaskPend ∧ (s.setReg64 a v).ladles = s.ladles ∧
    (s.setReg64 a v).gates = s.gates ∧ (s.setReg64 a v).links = s.links ∧ (s.setReg64 a v).sprue = s.sprue ∧
    (s.setReg64 a v).wires = s.wires ∧ (s.setReg64 a v).spTurn = s.spTurn ∧ (s.setReg64 a v).spFreed = s.spFreed ∧
    (s.setReg64 a v).flitSeq = s.flitSeq ∧ (s.setReg64 a v).early = s.early ∧ (s.setReg64 a v).sprueHeld = s.sprueHeld ∧
    (s.setReg64 a v).fw = s.fw ∧ (s.setReg64 a v).rst = s.rst ∧ (s.setReg64 a v).taps = s.taps ∧
    (s.setReg64 a v).pinsTaken = s.pinsTaken ∧ (s.setReg64 a v).trstLow = s.trstLow ∧ (s.setReg64 a v).failoverLeft = s.failoverLeft ∧
    (s.setReg64 a v).ksOut = s.ksOut ∧ (s.setReg64 a v).ksOutLate = s.ksOutLate ∧ (s.setReg64 a v).dead = s.dead ∧
    (s.setReg64 a v).attached = s.attached ∧ (s.setReg64 a v).free = s.free ∧ (s.setReg64 a v).pending = s.pending ∧
    (∀ j, (s.setReg64 a v).cru j = s.cru j) ∧ (∀ j, (s.setReg64 a v).core j = s.core j) ∧ (∀ j, (s.setReg64 a v).quoin j = s.quoin j) ∧
    (∀ j, (s.setReg64 a v).ks j = s.ks j) ∧ (∀ j, (s.setReg64 a v).hq j = s.hq j) ∧ (∀ j, (s.setReg64 a v).hd j = s.hd j) ∧
    (∀ j, (s.setReg64 a v).ladle j = s.ladle j) ∧ (∀ j, (s.setReg64 a v).gate j = s.gate j) :=
  ⟨rfl, rfl, rfl, rfl, rfl, rfl, rfl, rfl, rfl, rfl, rfl, rfl, rfl, rfl, rfl, rfl, rfl, rfl, rfl, rfl, rfl, rfl, rfl, rfl, rfl, rfl, rfl,
    rfl, rfl, rfl, rfl, rfl, rfl, rfl, rfl, rfl, rfl, rfl, rfl, rfl, rfl, rfl, rfl, rfl, rfl, rfl, rfl, rfl, rfl, rfl, rfl, rfl, rfl,
    rfl, rfl, rfl, rfl, rfl, fun _ => rfl, fun _ => rfl, fun _ => rfl, fun _ => rfl, fun _ => rfl, fun _ => rfl, fun _ => rfl,
    fun _ => rfl⟩

/-- What `bump` leaves unchanged. -/
@[simp] theorem bump_frame (s : State) (a lo w n : Nat) :
    (s.bump a lo w n).build = s.build ∧ (s.bump a lo w n).rwcBuf = s.rwcBuf ∧ (s.bump a lo w n).reqs = s.reqs ∧
    (s.bump a lo w n).sumLast = s.sumLast ∧ (s.bump a lo w n).irqSent = s.irqSent ∧ (s.bump a lo w n).tb = s.tb ∧
    (s.bump a lo w n).fc = s.fc ∧ (s.bump a lo w n).ml = s.ml ∧ (s.bump a lo w n).crus = s.crus ∧ (s.bump a lo w n).ran = s.ran ∧
    (s.bump a lo w n).cores = s.cores ∧ (s.bump a lo w n).quoins = s.quoins ∧ (s.bump a lo w n).active = s.active ∧
    (s.bump a lo w n).takeover = s.takeover ∧ (s.bump a lo w n).takeLate = s.takeLate ∧ (s.bump a lo w n).mould = s.mould ∧
    (s.bump a lo w n).mouldPoison = s.mouldPoison ∧ (s.bump a lo w n).code = s.code ∧ (s.bump a lo w n).codePoison = s.codePoison ∧
    (s.bump a lo w n).kss = s.kss ∧ (s.bump a lo w n).stack = s.stack ∧ (s.bump a lo w n).stackPoison = s.stackPoison ∧
    (s.bump a lo w n).net = s.net ∧ (s.bump a lo w n).tags = s.tags ∧ (s.bump a lo w n).outst = s.outst ∧
    (s.bump a lo w n).flasks = s.flasks ∧ (s.bump a lo w n).streams = s.streams ∧ (s.bump a lo w n).pours = s.pours ∧
    (s.bump a lo w n).paused = s.paused ∧ (s.bump a lo w n).extents = s.extents ∧ (s.bump a lo w n).sanitizing = s.sanitizing ∧
    (s.bump a lo w n).placeFm = s.placeFm ∧ (s.bump a lo w n).unspec = s.unspec ∧ (s.bump a lo w n).queues = s.queues ∧
    (s.bump a lo w n).hds = s.hds ∧ (s.bump a lo w n).flaskPend = s.flaskPend ∧ (s.bump a lo w n).ladles = s.ladles ∧
    (s.bump a lo w n).gates = s.gates ∧ (s.bump a lo w n).links = s.links ∧ (s.bump a lo w n).sprue = s.sprue ∧
    (s.bump a lo w n).wires = s.wires ∧ (s.bump a lo w n).spTurn = s.spTurn ∧ (s.bump a lo w n).spFreed = s.spFreed ∧
    (s.bump a lo w n).flitSeq = s.flitSeq ∧ (s.bump a lo w n).early = s.early ∧ (s.bump a lo w n).sprueHeld = s.sprueHeld ∧
    (s.bump a lo w n).fw = s.fw ∧ (s.bump a lo w n).rst = s.rst ∧ (s.bump a lo w n).taps = s.taps ∧
    (s.bump a lo w n).pinsTaken = s.pinsTaken ∧ (s.bump a lo w n).trstLow = s.trstLow ∧ (s.bump a lo w n).failoverLeft = s.failoverLeft ∧
    (s.bump a lo w n).ksOut = s.ksOut ∧ (s.bump a lo w n).ksOutLate = s.ksOutLate ∧ (s.bump a lo w n).dead = s.dead ∧
    (s.bump a lo w n).attached = s.attached ∧ (s.bump a lo w n).free = s.free ∧ (s.bump a lo w n).pending = s.pending ∧
    (∀ j, (s.bump a lo w n).cru j = s.cru j) ∧ (∀ j, (s.bump a lo w n).core j = s.core j) ∧ (∀ j, (s.bump a lo w n).quoin j = s.quoin j) ∧
    (∀ j, (s.bump a lo w n).ks j = s.ks j) ∧ (∀ j, (s.bump a lo w n).hq j = s.hq j) ∧ (∀ j, (s.bump a lo w n).hd j = s.hd j) ∧
    (∀ j, (s.bump a lo w n).ladle j = s.ladle j) ∧ (∀ j, (s.bump a lo w n).gate j = s.gate j) :=
  ⟨rfl, rfl, rfl, rfl, rfl, rfl, rfl, rfl, rfl, rfl, rfl, rfl, rfl, rfl, rfl, rfl, rfl, rfl, rfl, rfl, rfl, rfl, rfl, rfl, rfl, rfl, rfl,
    rfl, rfl, rfl, rfl, rfl, rfl, rfl, rfl, rfl, rfl, rfl, rfl, rfl, rfl, rfl, rfl, rfl, rfl, rfl, rfl, rfl, rfl, rfl, rfl, rfl, rfl,
    rfl, rfl, rfl, rfl, rfl, fun _ => rfl, fun _ => rfl, fun _ => rfl, fun _ => rfl, fun _ => rfl, fun _ => rfl, fun _ => rfl,
    fun _ => rfl⟩

/-- What `bump32` leaves unchanged. -/
@[simp] theorem bump32_frame (s : State) (a n : Nat) :
    (s.bump32 a n).build = s.build ∧ (s.bump32 a n).rwcBuf = s.rwcBuf ∧ (s.bump32 a n).reqs = s.reqs ∧
    (s.bump32 a n).sumLast = s.sumLast ∧ (s.bump32 a n).irqSent = s.irqSent ∧ (s.bump32 a n).tb = s.tb ∧ (s.bump32 a n).fc = s.fc ∧
    (s.bump32 a n).ml = s.ml ∧ (s.bump32 a n).crus = s.crus ∧ (s.bump32 a n).ran = s.ran ∧ (s.bump32 a n).cores = s.cores ∧
    (s.bump32 a n).quoins = s.quoins ∧ (s.bump32 a n).active = s.active ∧ (s.bump32 a n).takeover = s.takeover ∧
    (s.bump32 a n).takeLate = s.takeLate ∧ (s.bump32 a n).mould = s.mould ∧ (s.bump32 a n).mouldPoison = s.mouldPoison ∧
    (s.bump32 a n).code = s.code ∧ (s.bump32 a n).codePoison = s.codePoison ∧ (s.bump32 a n).kss = s.kss ∧
    (s.bump32 a n).stack = s.stack ∧ (s.bump32 a n).stackPoison = s.stackPoison ∧ (s.bump32 a n).net = s.net ∧
    (s.bump32 a n).tags = s.tags ∧ (s.bump32 a n).outst = s.outst ∧ (s.bump32 a n).flasks = s.flasks ∧
    (s.bump32 a n).streams = s.streams ∧ (s.bump32 a n).pours = s.pours ∧ (s.bump32 a n).paused = s.paused ∧
    (s.bump32 a n).extents = s.extents ∧ (s.bump32 a n).sanitizing = s.sanitizing ∧ (s.bump32 a n).placeFm = s.placeFm ∧
    (s.bump32 a n).unspec = s.unspec ∧ (s.bump32 a n).queues = s.queues ∧ (s.bump32 a n).hds = s.hds ∧
    (s.bump32 a n).flaskPend = s.flaskPend ∧ (s.bump32 a n).ladles = s.ladles ∧ (s.bump32 a n).gates = s.gates ∧
    (s.bump32 a n).links = s.links ∧ (s.bump32 a n).sprue = s.sprue ∧ (s.bump32 a n).wires = s.wires ∧ (s.bump32 a n).spTurn = s.spTurn ∧
    (s.bump32 a n).spFreed = s.spFreed ∧ (s.bump32 a n).flitSeq = s.flitSeq ∧ (s.bump32 a n).early = s.early ∧
    (s.bump32 a n).sprueHeld = s.sprueHeld ∧ (s.bump32 a n).fw = s.fw ∧ (s.bump32 a n).rst = s.rst ∧ (s.bump32 a n).taps = s.taps ∧
    (s.bump32 a n).pinsTaken = s.pinsTaken ∧ (s.bump32 a n).trstLow = s.trstLow ∧ (s.bump32 a n).failoverLeft = s.failoverLeft ∧
    (s.bump32 a n).ksOut = s.ksOut ∧ (s.bump32 a n).ksOutLate = s.ksOutLate ∧ (s.bump32 a n).dead = s.dead ∧
    (s.bump32 a n).attached = s.attached ∧ (s.bump32 a n).free = s.free ∧ (s.bump32 a n).pending = s.pending ∧
    (∀ j, (s.bump32 a n).cru j = s.cru j) ∧ (∀ j, (s.bump32 a n).core j = s.core j) ∧ (∀ j, (s.bump32 a n).quoin j = s.quoin j) ∧
    (∀ j, (s.bump32 a n).ks j = s.ks j) ∧ (∀ j, (s.bump32 a n).hq j = s.hq j) ∧ (∀ j, (s.bump32 a n).hd j = s.hd j) ∧
    (∀ j, (s.bump32 a n).ladle j = s.ladle j) ∧ (∀ j, (s.bump32 a n).gate j = s.gate j) :=
  ⟨rfl, rfl, rfl, rfl, rfl, rfl, rfl, rfl, rfl, rfl, rfl, rfl, rfl, rfl, rfl, rfl, rfl, rfl, rfl, rfl, rfl, rfl, rfl, rfl, rfl, rfl, rfl,
    rfl, rfl, rfl, rfl, rfl, rfl, rfl, rfl, rfl, rfl, rfl, rfl, rfl, rfl, rfl, rfl, rfl, rfl, rfl, rfl, rfl, rfl, rfl, rfl, rfl, rfl,
    rfl, rfl, rfl, rfl, rfl, fun _ => rfl, fun _ => rfl, fun _ => rfl, fun _ => rfl, fun _ => rfl, fun _ => rfl, fun _ => rfl,
    fun _ => rfl⟩

/-- What `bump64` leaves unchanged. -/
@[simp] theorem bump64_frame (s : State) (a n : Nat) :
    (s.bump64 a n).build = s.build ∧ (s.bump64 a n).rwcBuf = s.rwcBuf ∧ (s.bump64 a n).reqs = s.reqs ∧
    (s.bump64 a n).sumLast = s.sumLast ∧ (s.bump64 a n).irqSent = s.irqSent ∧ (s.bump64 a n).tb = s.tb ∧ (s.bump64 a n).fc = s.fc ∧
    (s.bump64 a n).ml = s.ml ∧ (s.bump64 a n).crus = s.crus ∧ (s.bump64 a n).ran = s.ran ∧ (s.bump64 a n).cores = s.cores ∧
    (s.bump64 a n).quoins = s.quoins ∧ (s.bump64 a n).active = s.active ∧ (s.bump64 a n).takeover = s.takeover ∧
    (s.bump64 a n).takeLate = s.takeLate ∧ (s.bump64 a n).mould = s.mould ∧ (s.bump64 a n).mouldPoison = s.mouldPoison ∧
    (s.bump64 a n).code = s.code ∧ (s.bump64 a n).codePoison = s.codePoison ∧ (s.bump64 a n).kss = s.kss ∧
    (s.bump64 a n).stack = s.stack ∧ (s.bump64 a n).stackPoison = s.stackPoison ∧ (s.bump64 a n).net = s.net ∧
    (s.bump64 a n).tags = s.tags ∧ (s.bump64 a n).outst = s.outst ∧ (s.bump64 a n).flasks = s.flasks ∧
    (s.bump64 a n).streams = s.streams ∧ (s.bump64 a n).pours = s.pours ∧ (s.bump64 a n).paused = s.paused ∧
    (s.bump64 a n).extents = s.extents ∧ (s.bump64 a n).sanitizing = s.sanitizing ∧ (s.bump64 a n).placeFm = s.placeFm ∧
    (s.bump64 a n).unspec = s.unspec ∧ (s.bump64 a n).queues = s.queues ∧ (s.bump64 a n).hds = s.hds ∧
    (s.bump64 a n).flaskPend = s.flaskPend ∧ (s.bump64 a n).ladles = s.ladles ∧ (s.bump64 a n).gates = s.gates ∧
    (s.bump64 a n).links = s.links ∧ (s.bump64 a n).sprue = s.sprue ∧ (s.bump64 a n).wires = s.wires ∧ (s.bump64 a n).spTurn = s.spTurn ∧
    (s.bump64 a n).spFreed = s.spFreed ∧ (s.bump64 a n).flitSeq = s.flitSeq ∧ (s.bump64 a n).early = s.early ∧
    (s.bump64 a n).sprueHeld = s.sprueHeld ∧ (s.bump64 a n).fw = s.fw ∧ (s.bump64 a n).rst = s.rst ∧ (s.bump64 a n).taps = s.taps ∧
    (s.bump64 a n).pinsTaken = s.pinsTaken ∧ (s.bump64 a n).trstLow = s.trstLow ∧ (s.bump64 a n).failoverLeft = s.failoverLeft ∧
    (s.bump64 a n).ksOut = s.ksOut ∧ (s.bump64 a n).ksOutLate = s.ksOutLate ∧ (s.bump64 a n).dead = s.dead ∧
    (s.bump64 a n).attached = s.attached ∧ (s.bump64 a n).free = s.free ∧ (s.bump64 a n).pending = s.pending ∧
    (∀ j, (s.bump64 a n).cru j = s.cru j) ∧ (∀ j, (s.bump64 a n).core j = s.core j) ∧ (∀ j, (s.bump64 a n).quoin j = s.quoin j) ∧
    (∀ j, (s.bump64 a n).ks j = s.ks j) ∧ (∀ j, (s.bump64 a n).hq j = s.hq j) ∧ (∀ j, (s.bump64 a n).hd j = s.hd j) ∧
    (∀ j, (s.bump64 a n).ladle j = s.ladle j) ∧ (∀ j, (s.bump64 a n).gate j = s.gate j) :=
  ⟨rfl, rfl, rfl, rfl, rfl, rfl, rfl, rfl, rfl, rfl, rfl, rfl, rfl, rfl, rfl, rfl, rfl, rfl, rfl, rfl, rfl, rfl, rfl, rfl, rfl, rfl, rfl,
    rfl, rfl, rfl, rfl, rfl, rfl, rfl, rfl, rfl, rfl, rfl, rfl, rfl, rfl, rfl, rfl, rfl, rfl, rfl, rfl, rfl, rfl, rfl, rfl, rfl, rfl,
    rfl, rfl, rfl, rfl, rfl, fun _ => rfl, fun _ => rfl, fun _ => rfl, fun _ => rfl, fun _ => rfl, fun _ => rfl, fun _ => rfl,
    fun _ => rfl⟩

/-- What `setCru` leaves unchanged. -/
@[simp] theorem setCru_frame (s : State) (n : Nat) (c : Cru) :
    (s.setCru n c).build = s.build ∧ (s.setCru n c).regs = s.regs ∧ (s.setCru n c).rwcBuf = s.rwcBuf ∧ (s.setCru n c).reqs = s.reqs ∧
    (s.setCru n c).sumLast = s.sumLast ∧ (s.setCru n c).irqSent = s.irqSent ∧ (s.setCru n c).tb = s.tb ∧ (s.setCru n c).fc = s.fc ∧
    (s.setCru n c).ml = s.ml ∧ (s.setCru n c).ran = s.ran ∧ (s.setCru n c).cores = s.cores ∧ (s.setCru n c).quoins = s.quoins ∧
    (s.setCru n c).active = s.active ∧ (s.setCru n c).takeover = s.takeover ∧ (s.setCru n c).takeLate = s.takeLate ∧
    (s.setCru n c).mould = s.mould ∧ (s.setCru n c).mouldPoison = s.mouldPoison ∧ (s.setCru n c).code = s.code ∧
    (s.setCru n c).codePoison = s.codePoison ∧ (s.setCru n c).kss = s.kss ∧ (s.setCru n c).stack = s.stack ∧
    (s.setCru n c).stackPoison = s.stackPoison ∧ (s.setCru n c).net = s.net ∧ (s.setCru n c).tags = s.tags ∧
    (s.setCru n c).outst = s.outst ∧ (s.setCru n c).flasks = s.flasks ∧ (s.setCru n c).streams = s.streams ∧
    (s.setCru n c).pours = s.pours ∧ (s.setCru n c).paused = s.paused ∧ (s.setCru n c).extents = s.extents ∧
    (s.setCru n c).sanitizing = s.sanitizing ∧ (s.setCru n c).placeFm = s.placeFm ∧ (s.setCru n c).unspec = s.unspec ∧
    (s.setCru n c).queues = s.queues ∧ (s.setCru n c).hds = s.hds ∧ (s.setCru n c).flaskPend = s.flaskPend ∧
    (s.setCru n c).ladles = s.ladles ∧ (s.setCru n c).gates = s.gates ∧ (s.setCru n c).links = s.links ∧ (s.setCru n c).sprue = s.sprue ∧
    (s.setCru n c).wires = s.wires ∧ (s.setCru n c).spTurn = s.spTurn ∧ (s.setCru n c).spFreed = s.spFreed ∧
    (s.setCru n c).flitSeq = s.flitSeq ∧ (s.setCru n c).early = s.early ∧ (s.setCru n c).sprueHeld = s.sprueHeld ∧
    (s.setCru n c).fw = s.fw ∧ (s.setCru n c).rst = s.rst ∧ (s.setCru n c).taps = s.taps ∧ (s.setCru n c).pinsTaken = s.pinsTaken ∧
    (s.setCru n c).trstLow = s.trstLow ∧ (s.setCru n c).failoverLeft = s.failoverLeft ∧ (s.setCru n c).ksOut = s.ksOut ∧
    (s.setCru n c).ksOutLate = s.ksOutLate ∧ (s.setCru n c).dead = s.dead ∧ (s.setCru n c).attached = s.attached ∧
    (s.setCru n c).free = s.free ∧ (s.setCru n c).pending = s.pending ∧ (∀ j, (s.setCru n c).reg j = s.reg j) ∧
    (∀ j, (s.setCru n c).core j = s.core j) ∧ (∀ j, (s.setCru n c).quoin j = s.quoin j) ∧ (∀ j, (s.setCru n c).ks j = s.ks j) ∧
    (∀ j, (s.setCru n c).hq j = s.hq j) ∧ (∀ j, (s.setCru n c).hd j = s.hd j) ∧ (∀ j, (s.setCru n c).ladle j = s.ladle j) ∧
    (∀ j, (s.setCru n c).gate j = s.gate j) :=
  ⟨rfl, rfl, rfl, rfl, rfl, rfl, rfl, rfl, rfl, rfl, rfl, rfl, rfl, rfl, rfl, rfl, rfl, rfl, rfl, rfl, rfl, rfl, rfl, rfl, rfl, rfl, rfl,
    rfl, rfl, rfl, rfl, rfl, rfl, rfl, rfl, rfl, rfl, rfl, rfl, rfl, rfl, rfl, rfl, rfl, rfl, rfl, rfl, rfl, rfl, rfl, rfl, rfl, rfl,
    rfl, rfl, rfl, rfl, rfl, fun _ => rfl, fun _ => rfl, fun _ => rfl, fun _ => rfl, fun _ => rfl, fun _ => rfl, fun _ => rfl,
    fun _ => rfl⟩

/-- What `setCru` sets. -/
@[simp] theorem setCru_cru (s : State) (n : Nat) (c : Cru) : (s.setCru n c).cru n = c := tblGet_tblSet_self _ _ _ _
@[simp] theorem setCru_cru_ne (s : State) (n : Nat) (c : Cru) (j : Nat) (hj : j ≠ n) : (s.setCru n c).cru j = s.cru j :=
  tblGet_tblSet_ne _ _ _ _ _ hj

/-- What `modCru` leaves unchanged. -/
@[simp] theorem modCru_frame (s : State) (n : Nat) (f : Cru → Cru) :
    (s.modCru n f).build = s.build ∧ (s.modCru n f).regs = s.regs ∧ (s.modCru n f).rwcBuf = s.rwcBuf ∧ (s.modCru n f).reqs = s.reqs ∧
    (s.modCru n f).sumLast = s.sumLast ∧ (s.modCru n f).irqSent = s.irqSent ∧ (s.modCru n f).tb = s.tb ∧ (s.modCru n f).fc = s.fc ∧
    (s.modCru n f).ml = s.ml ∧ (s.modCru n f).ran = s.ran ∧ (s.modCru n f).cores = s.cores ∧ (s.modCru n f).quoins = s.quoins ∧
    (s.modCru n f).active = s.active ∧ (s.modCru n f).takeover = s.takeover ∧ (s.modCru n f).takeLate = s.takeLate ∧
    (s.modCru n f).mould = s.mould ∧ (s.modCru n f).mouldPoison = s.mouldPoison ∧ (s.modCru n f).code = s.code ∧
    (s.modCru n f).codePoison = s.codePoison ∧ (s.modCru n f).kss = s.kss ∧ (s.modCru n f).stack = s.stack ∧
    (s.modCru n f).stackPoison = s.stackPoison ∧ (s.modCru n f).net = s.net ∧ (s.modCru n f).tags = s.tags ∧
    (s.modCru n f).outst = s.outst ∧ (s.modCru n f).flasks = s.flasks ∧ (s.modCru n f).streams = s.streams ∧
    (s.modCru n f).pours = s.pours ∧ (s.modCru n f).paused = s.paused ∧ (s.modCru n f).extents = s.extents ∧
    (s.modCru n f).sanitizing = s.sanitizing ∧ (s.modCru n f).placeFm = s.placeFm ∧ (s.modCru n f).unspec = s.unspec ∧
    (s.modCru n f).queues = s.queues ∧ (s.modCru n f).hds = s.hds ∧ (s.modCru n f).flaskPend = s.flaskPend ∧
    (s.modCru n f).ladles = s.ladles ∧ (s.modCru n f).gates = s.gates ∧ (s.modCru n f).links = s.links ∧ (s.modCru n f).sprue = s.sprue ∧
    (s.modCru n f).wires = s.wires ∧ (s.modCru n f).spTurn = s.spTurn ∧ (s.modCru n f).spFreed = s.spFreed ∧
    (s.modCru n f).flitSeq = s.flitSeq ∧ (s.modCru n f).early = s.early ∧ (s.modCru n f).sprueHeld = s.sprueHeld ∧
    (s.modCru n f).fw = s.fw ∧ (s.modCru n f).rst = s.rst ∧ (s.modCru n f).taps = s.taps ∧ (s.modCru n f).pinsTaken = s.pinsTaken ∧
    (s.modCru n f).trstLow = s.trstLow ∧ (s.modCru n f).failoverLeft = s.failoverLeft ∧ (s.modCru n f).ksOut = s.ksOut ∧
    (s.modCru n f).ksOutLate = s.ksOutLate ∧ (s.modCru n f).dead = s.dead ∧ (s.modCru n f).attached = s.attached ∧
    (s.modCru n f).free = s.free ∧ (s.modCru n f).pending = s.pending ∧ (∀ j, (s.modCru n f).reg j = s.reg j) ∧
    (∀ j, (s.modCru n f).core j = s.core j) ∧ (∀ j, (s.modCru n f).quoin j = s.quoin j) ∧ (∀ j, (s.modCru n f).ks j = s.ks j) ∧
    (∀ j, (s.modCru n f).hq j = s.hq j) ∧ (∀ j, (s.modCru n f).hd j = s.hd j) ∧ (∀ j, (s.modCru n f).ladle j = s.ladle j) ∧
    (∀ j, (s.modCru n f).gate j = s.gate j) :=
  ⟨rfl, rfl, rfl, rfl, rfl, rfl, rfl, rfl, rfl, rfl, rfl, rfl, rfl, rfl, rfl, rfl, rfl, rfl, rfl, rfl, rfl, rfl, rfl, rfl, rfl, rfl, rfl,
    rfl, rfl, rfl, rfl, rfl, rfl, rfl, rfl, rfl, rfl, rfl, rfl, rfl, rfl, rfl, rfl, rfl, rfl, rfl, rfl, rfl, rfl, rfl, rfl, rfl, rfl,
    rfl, rfl, rfl, rfl, rfl, fun _ => rfl, fun _ => rfl, fun _ => rfl, fun _ => rfl, fun _ => rfl, fun _ => rfl, fun _ => rfl,
    fun _ => rfl⟩

/-- What `modCru` sets. -/
@[simp] theorem modCru_cru (s : State) (n : Nat) (f : Cru → Cru) : (s.modCru n f).cru n = f (s.cru n) := tblGet_tblSet_self _ _ _ _
@[simp] theorem modCru_cru_ne (s : State) (n : Nat) (f : Cru → Cru) (j : Nat) (hj : j ≠ n) : (s.modCru n f).cru j = s.cru j :=
  tblGet_tblSet_ne _ _ _ _ _ hj

/-- What `setCore` leaves unchanged. -/
@[simp] theorem setCore_frame (s : State) (i : Nat) (c : Core) :
    (s.setCore i c).build = s.build ∧ (s.setCore i c).regs = s.regs ∧ (s.setCore i c).rwcBuf = s.rwcBuf ∧ (s.setCore i c).reqs = s.reqs ∧
    (s.setCore i c).sumLast = s.sumLast ∧ (s.setCore i c).irqSent = s.irqSent ∧ (s.setCore i c).tb = s.tb ∧ (s.setCore i c).fc = s.fc ∧
    (s.setCore i c).ml = s.ml ∧ (s.setCore i c).crus = s.crus ∧ (s.setCore i c).ran = s.ran ∧ (s.setCore i c).quoins = s.quoins ∧
    (s.setCore i c).active = s.active ∧ (s.setCore i c).takeover = s.takeover ∧ (s.setCore i c).takeLate = s.takeLate ∧
    (s.setCore i c).mould = s.mould ∧ (s.setCore i c).mouldPoison = s.mouldPoison ∧ (s.setCore i c).code = s.code ∧
    (s.setCore i c).codePoison = s.codePoison ∧ (s.setCore i c).kss = s.kss ∧ (s.setCore i c).stack = s.stack ∧
    (s.setCore i c).stackPoison = s.stackPoison ∧ (s.setCore i c).net = s.net ∧ (s.setCore i c).tags = s.tags ∧
    (s.setCore i c).outst = s.outst ∧ (s.setCore i c).flasks = s.flasks ∧ (s.setCore i c).streams = s.streams ∧
    (s.setCore i c).pours = s.pours ∧ (s.setCore i c).paused = s.paused ∧ (s.setCore i c).extents = s.extents ∧
    (s.setCore i c).sanitizing = s.sanitizing ∧ (s.setCore i c).placeFm = s.placeFm ∧ (s.setCore i c).unspec = s.unspec ∧
    (s.setCore i c).queues = s.queues ∧ (s.setCore i c).hds = s.hds ∧ (s.setCore i c).flaskPend = s.flaskPend ∧
    (s.setCore i c).ladles = s.ladles ∧ (s.setCore i c).gates = s.gates ∧ (s.setCore i c).links = s.links ∧
    (s.setCore i c).sprue = s.sprue ∧ (s.setCore i c).wires = s.wires ∧ (s.setCore i c).spTurn = s.spTurn ∧
    (s.setCore i c).spFreed = s.spFreed ∧ (s.setCore i c).flitSeq = s.flitSeq ∧ (s.setCore i c).early = s.early ∧
    (s.setCore i c).sprueHeld = s.sprueHeld ∧ (s.setCore i c).fw = s.fw ∧ (s.setCore i c).rst = s.rst ∧ (s.setCore i c).taps = s.taps ∧
    (s.setCore i c).pinsTaken = s.pinsTaken ∧ (s.setCore i c).trstLow = s.trstLow ∧ (s.setCore i c).failoverLeft = s.failoverLeft ∧
    (s.setCore i c).ksOut = s.ksOut ∧ (s.setCore i c).ksOutLate = s.ksOutLate ∧ (s.setCore i c).dead = s.dead ∧
    (s.setCore i c).attached = s.attached ∧ (s.setCore i c).free = s.free ∧ (s.setCore i c).pending = s.pending ∧
    (∀ j, (s.setCore i c).reg j = s.reg j) ∧ (∀ j, (s.setCore i c).cru j = s.cru j) ∧ (∀ j, (s.setCore i c).quoin j = s.quoin j) ∧
    (∀ j, (s.setCore i c).ks j = s.ks j) ∧ (∀ j, (s.setCore i c).hq j = s.hq j) ∧ (∀ j, (s.setCore i c).hd j = s.hd j) ∧
    (∀ j, (s.setCore i c).ladle j = s.ladle j) ∧ (∀ j, (s.setCore i c).gate j = s.gate j) :=
  ⟨rfl, rfl, rfl, rfl, rfl, rfl, rfl, rfl, rfl, rfl, rfl, rfl, rfl, rfl, rfl, rfl, rfl, rfl, rfl, rfl, rfl, rfl, rfl, rfl, rfl, rfl, rfl,
    rfl, rfl, rfl, rfl, rfl, rfl, rfl, rfl, rfl, rfl, rfl, rfl, rfl, rfl, rfl, rfl, rfl, rfl, rfl, rfl, rfl, rfl, rfl, rfl, rfl, rfl,
    rfl, rfl, rfl, rfl, rfl, fun _ => rfl, fun _ => rfl, fun _ => rfl, fun _ => rfl, fun _ => rfl, fun _ => rfl, fun _ => rfl,
    fun _ => rfl⟩

/-- What `setCore` sets. -/
@[simp] theorem setCore_core (s : State) (i : Nat) (c : Core) : (s.setCore i c).core i = c := tblGet_tblSet_self _ _ _ _
@[simp] theorem setCore_core_ne (s : State) (i : Nat) (c : Core) (j : Nat) (hj : j ≠ i) : (s.setCore i c).core j = s.core j :=
  tblGet_tblSet_ne _ _ _ _ _ hj

/-- What `modCore` leaves unchanged. -/
@[simp] theorem modCore_frame (s : State) (i : Nat) (f : Core → Core) :
    (s.modCore i f).build = s.build ∧ (s.modCore i f).regs = s.regs ∧ (s.modCore i f).rwcBuf = s.rwcBuf ∧ (s.modCore i f).reqs = s.reqs ∧
    (s.modCore i f).sumLast = s.sumLast ∧ (s.modCore i f).irqSent = s.irqSent ∧ (s.modCore i f).tb = s.tb ∧ (s.modCore i f).fc = s.fc ∧
    (s.modCore i f).ml = s.ml ∧ (s.modCore i f).crus = s.crus ∧ (s.modCore i f).ran = s.ran ∧ (s.modCore i f).quoins = s.quoins ∧
    (s.modCore i f).active = s.active ∧ (s.modCore i f).takeover = s.takeover ∧ (s.modCore i f).takeLate = s.takeLate ∧
    (s.modCore i f).mould = s.mould ∧ (s.modCore i f).mouldPoison = s.mouldPoison ∧ (s.modCore i f).code = s.code ∧
    (s.modCore i f).codePoison = s.codePoison ∧ (s.modCore i f).kss = s.kss ∧ (s.modCore i f).stack = s.stack ∧
    (s.modCore i f).stackPoison = s.stackPoison ∧ (s.modCore i f).net = s.net ∧ (s.modCore i f).tags = s.tags ∧
    (s.modCore i f).outst = s.outst ∧ (s.modCore i f).flasks = s.flasks ∧ (s.modCore i f).streams = s.streams ∧
    (s.modCore i f).pours = s.pours ∧ (s.modCore i f).paused = s.paused ∧ (s.modCore i f).extents = s.extents ∧
    (s.modCore i f).sanitizing = s.sanitizing ∧ (s.modCore i f).placeFm = s.placeFm ∧ (s.modCore i f).unspec = s.unspec ∧
    (s.modCore i f).queues = s.queues ∧ (s.modCore i f).hds = s.hds ∧ (s.modCore i f).flaskPend = s.flaskPend ∧
    (s.modCore i f).ladles = s.ladles ∧ (s.modCore i f).gates = s.gates ∧ (s.modCore i f).links = s.links ∧
    (s.modCore i f).sprue = s.sprue ∧ (s.modCore i f).wires = s.wires ∧ (s.modCore i f).spTurn = s.spTurn ∧
    (s.modCore i f).spFreed = s.spFreed ∧ (s.modCore i f).flitSeq = s.flitSeq ∧ (s.modCore i f).early = s.early ∧
    (s.modCore i f).sprueHeld = s.sprueHeld ∧ (s.modCore i f).fw = s.fw ∧ (s.modCore i f).rst = s.rst ∧ (s.modCore i f).taps = s.taps ∧
    (s.modCore i f).pinsTaken = s.pinsTaken ∧ (s.modCore i f).trstLow = s.trstLow ∧ (s.modCore i f).failoverLeft = s.failoverLeft ∧
    (s.modCore i f).ksOut = s.ksOut ∧ (s.modCore i f).ksOutLate = s.ksOutLate ∧ (s.modCore i f).dead = s.dead ∧
    (s.modCore i f).attached = s.attached ∧ (s.modCore i f).free = s.free ∧ (s.modCore i f).pending = s.pending ∧
    (∀ j, (s.modCore i f).reg j = s.reg j) ∧ (∀ j, (s.modCore i f).cru j = s.cru j) ∧ (∀ j, (s.modCore i f).quoin j = s.quoin j) ∧
    (∀ j, (s.modCore i f).ks j = s.ks j) ∧ (∀ j, (s.modCore i f).hq j = s.hq j) ∧ (∀ j, (s.modCore i f).hd j = s.hd j) ∧
    (∀ j, (s.modCore i f).ladle j = s.ladle j) ∧ (∀ j, (s.modCore i f).gate j = s.gate j) :=
  ⟨rfl, rfl, rfl, rfl, rfl, rfl, rfl, rfl, rfl, rfl, rfl, rfl, rfl, rfl, rfl, rfl, rfl, rfl, rfl, rfl, rfl, rfl, rfl, rfl, rfl, rfl, rfl,
    rfl, rfl, rfl, rfl, rfl, rfl, rfl, rfl, rfl, rfl, rfl, rfl, rfl, rfl, rfl, rfl, rfl, rfl, rfl, rfl, rfl, rfl, rfl, rfl, rfl, rfl,
    rfl, rfl, rfl, rfl, rfl, fun _ => rfl, fun _ => rfl, fun _ => rfl, fun _ => rfl, fun _ => rfl, fun _ => rfl, fun _ => rfl,
    fun _ => rfl⟩

/-- What `modCore` sets. -/
@[simp] theorem modCore_core (s : State) (i : Nat) (f : Core → Core) : (s.modCore i f).core i = f (s.core i) := tblGet_tblSet_self _ _ _ _
@[simp] theorem modCore_core_ne (s : State) (i : Nat) (f : Core → Core) (j : Nat) (hj : j ≠ i) : (s.modCore i f).core j = s.core j :=
  tblGet_tblSet_ne _ _ _ _ _ hj

/-- What `setQuoin` leaves unchanged. -/
@[simp] theorem setQuoin_frame (s : State) (e : Nat) (q : Quoin) :
    (s.setQuoin e q).build = s.build ∧ (s.setQuoin e q).regs = s.regs ∧ (s.setQuoin e q).rwcBuf = s.rwcBuf ∧
    (s.setQuoin e q).reqs = s.reqs ∧ (s.setQuoin e q).sumLast = s.sumLast ∧ (s.setQuoin e q).irqSent = s.irqSent ∧
    (s.setQuoin e q).tb = s.tb ∧ (s.setQuoin e q).fc = s.fc ∧ (s.setQuoin e q).ml = s.ml ∧ (s.setQuoin e q).crus = s.crus ∧
    (s.setQuoin e q).ran = s.ran ∧ (s.setQuoin e q).cores = s.cores ∧ (s.setQuoin e q).active = s.active ∧
    (s.setQuoin e q).takeover = s.takeover ∧ (s.setQuoin e q).takeLate = s.takeLate ∧ (s.setQuoin e q).mould = s.mould ∧
    (s.setQuoin e q).mouldPoison = s.mouldPoison ∧ (s.setQuoin e q).code = s.code ∧ (s.setQuoin e q).codePoison = s.codePoison ∧
    (s.setQuoin e q).kss = s.kss ∧ (s.setQuoin e q).stack = s.stack ∧ (s.setQuoin e q).stackPoison = s.stackPoison ∧
    (s.setQuoin e q).net = s.net ∧ (s.setQuoin e q).tags = s.tags ∧ (s.setQuoin e q).outst = s.outst ∧
    (s.setQuoin e q).flasks = s.flasks ∧ (s.setQuoin e q).streams = s.streams ∧ (s.setQuoin e q).pours = s.pours ∧
    (s.setQuoin e q).paused = s.paused ∧ (s.setQuoin e q).extents = s.extents ∧ (s.setQuoin e q).sanitizing = s.sanitizing ∧
    (s.setQuoin e q).placeFm = s.placeFm ∧ (s.setQuoin e q).unspec = s.unspec ∧ (s.setQuoin e q).queues = s.queues ∧
    (s.setQuoin e q).hds = s.hds ∧ (s.setQuoin e q).flaskPend = s.flaskPend ∧ (s.setQuoin e q).ladles = s.ladles ∧
    (s.setQuoin e q).gates = s.gates ∧ (s.setQuoin e q).links = s.links ∧ (s.setQuoin e q).sprue = s.sprue ∧
    (s.setQuoin e q).wires = s.wires ∧ (s.setQuoin e q).spTurn = s.spTurn ∧ (s.setQuoin e q).spFreed = s.spFreed ∧
    (s.setQuoin e q).flitSeq = s.flitSeq ∧ (s.setQuoin e q).early = s.early ∧ (s.setQuoin e q).sprueHeld = s.sprueHeld ∧
    (s.setQuoin e q).fw = s.fw ∧ (s.setQuoin e q).rst = s.rst ∧ (s.setQuoin e q).taps = s.taps ∧
    (s.setQuoin e q).pinsTaken = s.pinsTaken ∧ (s.setQuoin e q).trstLow = s.trstLow ∧ (s.setQuoin e q).failoverLeft = s.failoverLeft ∧
    (s.setQuoin e q).ksOut = s.ksOut ∧ (s.setQuoin e q).ksOutLate = s.ksOutLate ∧ (s.setQuoin e q).dead = s.dead ∧
    (s.setQuoin e q).attached = s.attached ∧ (s.setQuoin e q).free = s.free ∧ (s.setQuoin e q).pending = s.pending ∧
    (∀ j, (s.setQuoin e q).reg j = s.reg j) ∧ (∀ j, (s.setQuoin e q).cru j = s.cru j) ∧ (∀ j, (s.setQuoin e q).core j = s.core j) ∧
    (∀ j, (s.setQuoin e q).ks j = s.ks j) ∧ (∀ j, (s.setQuoin e q).hq j = s.hq j) ∧ (∀ j, (s.setQuoin e q).hd j = s.hd j) ∧
    (∀ j, (s.setQuoin e q).ladle j = s.ladle j) ∧ (∀ j, (s.setQuoin e q).gate j = s.gate j) :=
  ⟨rfl, rfl, rfl, rfl, rfl, rfl, rfl, rfl, rfl, rfl, rfl, rfl, rfl, rfl, rfl, rfl, rfl, rfl, rfl, rfl, rfl, rfl, rfl, rfl, rfl, rfl, rfl,
    rfl, rfl, rfl, rfl, rfl, rfl, rfl, rfl, rfl, rfl, rfl, rfl, rfl, rfl, rfl, rfl, rfl, rfl, rfl, rfl, rfl, rfl, rfl, rfl, rfl, rfl,
    rfl, rfl, rfl, rfl, rfl, fun _ => rfl, fun _ => rfl, fun _ => rfl, fun _ => rfl, fun _ => rfl, fun _ => rfl, fun _ => rfl,
    fun _ => rfl⟩

/-- What `setQuoin` sets. -/
@[simp] theorem setQuoin_quoin (s : State) (e : Nat) (q : Quoin) : (s.setQuoin e q).quoin e = q := tblGet_tblSet_self _ _ _ _
@[simp] theorem setQuoin_quoin_ne (s : State) (e : Nat) (q : Quoin) (j : Nat) (hj : j ≠ e) : (s.setQuoin e q).quoin j = s.quoin j :=
  tblGet_tblSet_ne _ _ _ _ _ hj

/-- What `setKs` leaves unchanged. -/
@[simp] theorem setKs_frame (s : State) (k : Nat) (x : Ks) :
    (s.setKs k x).build = s.build ∧ (s.setKs k x).regs = s.regs ∧ (s.setKs k x).rwcBuf = s.rwcBuf ∧ (s.setKs k x).reqs = s.reqs ∧
    (s.setKs k x).sumLast = s.sumLast ∧ (s.setKs k x).irqSent = s.irqSent ∧ (s.setKs k x).tb = s.tb ∧ (s.setKs k x).fc = s.fc ∧
    (s.setKs k x).ml = s.ml ∧ (s.setKs k x).crus = s.crus ∧ (s.setKs k x).ran = s.ran ∧ (s.setKs k x).cores = s.cores ∧
    (s.setKs k x).quoins = s.quoins ∧ (s.setKs k x).active = s.active ∧ (s.setKs k x).takeover = s.takeover ∧
    (s.setKs k x).takeLate = s.takeLate ∧ (s.setKs k x).mould = s.mould ∧ (s.setKs k x).mouldPoison = s.mouldPoison ∧
    (s.setKs k x).code = s.code ∧ (s.setKs k x).codePoison = s.codePoison ∧ (s.setKs k x).stack = s.stack ∧
    (s.setKs k x).stackPoison = s.stackPoison ∧ (s.setKs k x).net = s.net ∧ (s.setKs k x).tags = s.tags ∧ (s.setKs k x).outst = s.outst ∧
    (s.setKs k x).flasks = s.flasks ∧ (s.setKs k x).streams = s.streams ∧ (s.setKs k x).pours = s.pours ∧
    (s.setKs k x).paused = s.paused ∧ (s.setKs k x).extents = s.extents ∧ (s.setKs k x).sanitizing = s.sanitizing ∧
    (s.setKs k x).placeFm = s.placeFm ∧ (s.setKs k x).unspec = s.unspec ∧ (s.setKs k x).queues = s.queues ∧ (s.setKs k x).hds = s.hds ∧
    (s.setKs k x).flaskPend = s.flaskPend ∧ (s.setKs k x).ladles = s.ladles ∧ (s.setKs k x).gates = s.gates ∧
    (s.setKs k x).links = s.links ∧ (s.setKs k x).sprue = s.sprue ∧ (s.setKs k x).wires = s.wires ∧ (s.setKs k x).spTurn = s.spTurn ∧
    (s.setKs k x).spFreed = s.spFreed ∧ (s.setKs k x).flitSeq = s.flitSeq ∧ (s.setKs k x).early = s.early ∧
    (s.setKs k x).sprueHeld = s.sprueHeld ∧ (s.setKs k x).fw = s.fw ∧ (s.setKs k x).rst = s.rst ∧ (s.setKs k x).taps = s.taps ∧
    (s.setKs k x).pinsTaken = s.pinsTaken ∧ (s.setKs k x).trstLow = s.trstLow ∧ (s.setKs k x).failoverLeft = s.failoverLeft ∧
    (s.setKs k x).ksOut = s.ksOut ∧ (s.setKs k x).ksOutLate = s.ksOutLate ∧ (s.setKs k x).dead = s.dead ∧
    (s.setKs k x).attached = s.attached ∧ (s.setKs k x).free = s.free ∧ (s.setKs k x).pending = s.pending ∧
    (∀ j, (s.setKs k x).reg j = s.reg j) ∧ (∀ j, (s.setKs k x).cru j = s.cru j) ∧ (∀ j, (s.setKs k x).core j = s.core j) ∧
    (∀ j, (s.setKs k x).quoin j = s.quoin j) ∧ (∀ j, (s.setKs k x).hq j = s.hq j) ∧ (∀ j, (s.setKs k x).hd j = s.hd j) ∧
    (∀ j, (s.setKs k x).ladle j = s.ladle j) ∧ (∀ j, (s.setKs k x).gate j = s.gate j) :=
  ⟨rfl, rfl, rfl, rfl, rfl, rfl, rfl, rfl, rfl, rfl, rfl, rfl, rfl, rfl, rfl, rfl, rfl, rfl, rfl, rfl, rfl, rfl, rfl, rfl, rfl, rfl, rfl,
    rfl, rfl, rfl, rfl, rfl, rfl, rfl, rfl, rfl, rfl, rfl, rfl, rfl, rfl, rfl, rfl, rfl, rfl, rfl, rfl, rfl, rfl, rfl, rfl, rfl, rfl,
    rfl, rfl, rfl, rfl, rfl, fun _ => rfl, fun _ => rfl, fun _ => rfl, fun _ => rfl, fun _ => rfl, fun _ => rfl, fun _ => rfl,
    fun _ => rfl⟩

/-- What `setKs` sets. -/
@[simp] theorem setKs_ks (s : State) (k : Nat) (x : Ks) : (s.setKs k x).ks k = x := tblGet_tblSet_self _ _ _ _
@[simp] theorem setKs_ks_ne (s : State) (k : Nat) (x : Ks) (j : Nat) (hj : j ≠ k) : (s.setKs k x).ks j = s.ks j :=
  tblGet_tblSet_ne _ _ _ _ _ hj

/-- What `modKs` leaves unchanged. -/
@[simp] theorem modKs_frame (s : State) (k : Nat) (f : Ks → Ks) :
    (s.modKs k f).build = s.build ∧ (s.modKs k f).regs = s.regs ∧ (s.modKs k f).rwcBuf = s.rwcBuf ∧ (s.modKs k f).reqs = s.reqs ∧
    (s.modKs k f).sumLast = s.sumLast ∧ (s.modKs k f).irqSent = s.irqSent ∧ (s.modKs k f).tb = s.tb ∧ (s.modKs k f).fc = s.fc ∧
    (s.modKs k f).ml = s.ml ∧ (s.modKs k f).crus = s.crus ∧ (s.modKs k f).ran = s.ran ∧ (s.modKs k f).cores = s.cores ∧
    (s.modKs k f).quoins = s.quoins ∧ (s.modKs k f).active = s.active ∧ (s.modKs k f).takeover = s.takeover ∧
    (s.modKs k f).takeLate = s.takeLate ∧ (s.modKs k f).mould = s.mould ∧ (s.modKs k f).mouldPoison = s.mouldPoison ∧
    (s.modKs k f).code = s.code ∧ (s.modKs k f).codePoison = s.codePoison ∧ (s.modKs k f).stack = s.stack ∧
    (s.modKs k f).stackPoison = s.stackPoison ∧ (s.modKs k f).net = s.net ∧ (s.modKs k f).tags = s.tags ∧ (s.modKs k f).outst = s.outst ∧
    (s.modKs k f).flasks = s.flasks ∧ (s.modKs k f).streams = s.streams ∧ (s.modKs k f).pours = s.pours ∧
    (s.modKs k f).paused = s.paused ∧ (s.modKs k f).extents = s.extents ∧ (s.modKs k f).sanitizing = s.sanitizing ∧
    (s.modKs k f).placeFm = s.placeFm ∧ (s.modKs k f).unspec = s.unspec ∧ (s.modKs k f).queues = s.queues ∧ (s.modKs k f).hds = s.hds ∧
    (s.modKs k f).flaskPend = s.flaskPend ∧ (s.modKs k f).ladles = s.ladles ∧ (s.modKs k f).gates = s.gates ∧
    (s.modKs k f).links = s.links ∧ (s.modKs k f).sprue = s.sprue ∧ (s.modKs k f).wires = s.wires ∧ (s.modKs k f).spTurn = s.spTurn ∧
    (s.modKs k f).spFreed = s.spFreed ∧ (s.modKs k f).flitSeq = s.flitSeq ∧ (s.modKs k f).early = s.early ∧
    (s.modKs k f).sprueHeld = s.sprueHeld ∧ (s.modKs k f).fw = s.fw ∧ (s.modKs k f).rst = s.rst ∧ (s.modKs k f).taps = s.taps ∧
    (s.modKs k f).pinsTaken = s.pinsTaken ∧ (s.modKs k f).trstLow = s.trstLow ∧ (s.modKs k f).failoverLeft = s.failoverLeft ∧
    (s.modKs k f).ksOut = s.ksOut ∧ (s.modKs k f).ksOutLate = s.ksOutLate ∧ (s.modKs k f).dead = s.dead ∧
    (s.modKs k f).attached = s.attached ∧ (s.modKs k f).free = s.free ∧ (s.modKs k f).pending = s.pending ∧
    (∀ j, (s.modKs k f).reg j = s.reg j) ∧ (∀ j, (s.modKs k f).cru j = s.cru j) ∧ (∀ j, (s.modKs k f).core j = s.core j) ∧
    (∀ j, (s.modKs k f).quoin j = s.quoin j) ∧ (∀ j, (s.modKs k f).hq j = s.hq j) ∧ (∀ j, (s.modKs k f).hd j = s.hd j) ∧
    (∀ j, (s.modKs k f).ladle j = s.ladle j) ∧ (∀ j, (s.modKs k f).gate j = s.gate j) :=
  ⟨rfl, rfl, rfl, rfl, rfl, rfl, rfl, rfl, rfl, rfl, rfl, rfl, rfl, rfl, rfl, rfl, rfl, rfl, rfl, rfl, rfl, rfl, rfl, rfl, rfl, rfl, rfl,
    rfl, rfl, rfl, rfl, rfl, rfl, rfl, rfl, rfl, rfl, rfl, rfl, rfl, rfl, rfl, rfl, rfl, rfl, rfl, rfl, rfl, rfl, rfl, rfl, rfl, rfl,
    rfl, rfl, rfl, rfl, rfl, fun _ => rfl, fun _ => rfl, fun _ => rfl, fun _ => rfl, fun _ => rfl, fun _ => rfl, fun _ => rfl,
    fun _ => rfl⟩

/-- What `modKs` sets. -/
@[simp] theorem modKs_ks (s : State) (k : Nat) (f : Ks → Ks) : (s.modKs k f).ks k = f (s.ks k) := tblGet_tblSet_self _ _ _ _
@[simp] theorem modKs_ks_ne (s : State) (k : Nat) (f : Ks → Ks) (j : Nat) (hj : j ≠ k) : (s.modKs k f).ks j = s.ks j :=
  tblGet_tblSet_ne _ _ _ _ _ hj

/-- What `modHq` leaves unchanged. -/
@[simp] theorem modHq_frame (s : State) (q : Nat) (f : HostQ → HostQ) :
    (s.modHq q f).build = s.build ∧ (s.modHq q f).regs = s.regs ∧ (s.modHq q f).rwcBuf = s.rwcBuf ∧ (s.modHq q f).reqs = s.reqs ∧
    (s.modHq q f).sumLast = s.sumLast ∧ (s.modHq q f).irqSent = s.irqSent ∧ (s.modHq q f).tb = s.tb ∧ (s.modHq q f).fc = s.fc ∧
    (s.modHq q f).ml = s.ml ∧ (s.modHq q f).crus = s.crus ∧ (s.modHq q f).ran = s.ran ∧ (s.modHq q f).cores = s.cores ∧
    (s.modHq q f).quoins = s.quoins ∧ (s.modHq q f).active = s.active ∧ (s.modHq q f).takeover = s.takeover ∧
    (s.modHq q f).takeLate = s.takeLate ∧ (s.modHq q f).mould = s.mould ∧ (s.modHq q f).mouldPoison = s.mouldPoison ∧
    (s.modHq q f).code = s.code ∧ (s.modHq q f).codePoison = s.codePoison ∧ (s.modHq q f).kss = s.kss ∧ (s.modHq q f).stack = s.stack ∧
    (s.modHq q f).stackPoison = s.stackPoison ∧ (s.modHq q f).net = s.net ∧ (s.modHq q f).tags = s.tags ∧ (s.modHq q f).outst = s.outst ∧
    (s.modHq q f).flasks = s.flasks ∧ (s.modHq q f).streams = s.streams ∧ (s.modHq q f).pours = s.pours ∧
    (s.modHq q f).paused = s.paused ∧ (s.modHq q f).extents = s.extents ∧ (s.modHq q f).sanitizing = s.sanitizing ∧
    (s.modHq q f).placeFm = s.placeFm ∧ (s.modHq q f).unspec = s.unspec ∧ (s.modHq q f).hds = s.hds ∧
    (s.modHq q f).flaskPend = s.flaskPend ∧ (s.modHq q f).ladles = s.ladles ∧ (s.modHq q f).gates = s.gates ∧
    (s.modHq q f).links = s.links ∧ (s.modHq q f).sprue = s.sprue ∧ (s.modHq q f).wires = s.wires ∧ (s.modHq q f).spTurn = s.spTurn ∧
    (s.modHq q f).spFreed = s.spFreed ∧ (s.modHq q f).flitSeq = s.flitSeq ∧ (s.modHq q f).early = s.early ∧
    (s.modHq q f).sprueHeld = s.sprueHeld ∧ (s.modHq q f).fw = s.fw ∧ (s.modHq q f).rst = s.rst ∧ (s.modHq q f).taps = s.taps ∧
    (s.modHq q f).pinsTaken = s.pinsTaken ∧ (s.modHq q f).trstLow = s.trstLow ∧ (s.modHq q f).failoverLeft = s.failoverLeft ∧
    (s.modHq q f).ksOut = s.ksOut ∧ (s.modHq q f).ksOutLate = s.ksOutLate ∧ (s.modHq q f).dead = s.dead ∧
    (s.modHq q f).attached = s.attached ∧ (s.modHq q f).free = s.free ∧ (s.modHq q f).pending = s.pending ∧
    (∀ j, (s.modHq q f).reg j = s.reg j) ∧ (∀ j, (s.modHq q f).cru j = s.cru j) ∧ (∀ j, (s.modHq q f).core j = s.core j) ∧
    (∀ j, (s.modHq q f).quoin j = s.quoin j) ∧ (∀ j, (s.modHq q f).ks j = s.ks j) ∧ (∀ j, (s.modHq q f).hd j = s.hd j) ∧
    (∀ j, (s.modHq q f).ladle j = s.ladle j) ∧ (∀ j, (s.modHq q f).gate j = s.gate j) :=
  ⟨rfl, rfl, rfl, rfl, rfl, rfl, rfl, rfl, rfl, rfl, rfl, rfl, rfl, rfl, rfl, rfl, rfl, rfl, rfl, rfl, rfl, rfl, rfl, rfl, rfl, rfl, rfl,
    rfl, rfl, rfl, rfl, rfl, rfl, rfl, rfl, rfl, rfl, rfl, rfl, rfl, rfl, rfl, rfl, rfl, rfl, rfl, rfl, rfl, rfl, rfl, rfl, rfl, rfl,
    rfl, rfl, rfl, rfl, rfl, fun _ => rfl, fun _ => rfl, fun _ => rfl, fun _ => rfl, fun _ => rfl, fun _ => rfl, fun _ => rfl,
    fun _ => rfl⟩

/-- What `modHq` sets. -/
@[simp] theorem modHq_hq (s : State) (q : Nat) (f : HostQ → HostQ) : (s.modHq q f).hq q = f (s.hq q) := tblGet_tblSet_self _ _ _ _
@[simp] theorem modHq_hq_ne (s : State) (q : Nat) (f : HostQ → HostQ) (j : Nat) (hj : j ≠ q) : (s.modHq q f).hq j = s.hq j :=
  tblGet_tblSet_ne _ _ _ _ _ hj

/-- What `modHd` leaves unchanged. -/
@[simp] theorem modHd_frame (s : State) (h : Nat) (f : Hd → Hd) :
    (s.modHd h f).build = s.build ∧ (s.modHd h f).regs = s.regs ∧ (s.modHd h f).rwcBuf = s.rwcBuf ∧ (s.modHd h f).reqs = s.reqs ∧
    (s.modHd h f).sumLast = s.sumLast ∧ (s.modHd h f).irqSent = s.irqSent ∧ (s.modHd h f).tb = s.tb ∧ (s.modHd h f).fc = s.fc ∧
    (s.modHd h f).ml = s.ml ∧ (s.modHd h f).crus = s.crus ∧ (s.modHd h f).ran = s.ran ∧ (s.modHd h f).cores = s.cores ∧
    (s.modHd h f).quoins = s.quoins ∧ (s.modHd h f).active = s.active ∧ (s.modHd h f).takeover = s.takeover ∧
    (s.modHd h f).takeLate = s.takeLate ∧ (s.modHd h f).mould = s.mould ∧ (s.modHd h f).mouldPoison = s.mouldPoison ∧
    (s.modHd h f).code = s.code ∧ (s.modHd h f).codePoison = s.codePoison ∧ (s.modHd h f).kss = s.kss ∧ (s.modHd h f).stack = s.stack ∧
    (s.modHd h f).stackPoison = s.stackPoison ∧ (s.modHd h f).net = s.net ∧ (s.modHd h f).tags = s.tags ∧ (s.modHd h f).outst = s.outst ∧
    (s.modHd h f).flasks = s.flasks ∧ (s.modHd h f).streams = s.streams ∧ (s.modHd h f).pours = s.pours ∧
    (s.modHd h f).paused = s.paused ∧ (s.modHd h f).extents = s.extents ∧ (s.modHd h f).sanitizing = s.sanitizing ∧
    (s.modHd h f).placeFm = s.placeFm ∧ (s.modHd h f).unspec = s.unspec ∧ (s.modHd h f).queues = s.queues ∧
    (s.modHd h f).flaskPend = s.flaskPend ∧ (s.modHd h f).ladles = s.ladles ∧ (s.modHd h f).gates = s.gates ∧
    (s.modHd h f).links = s.links ∧ (s.modHd h f).sprue = s.sprue ∧ (s.modHd h f).wires = s.wires ∧ (s.modHd h f).spTurn = s.spTurn ∧
    (s.modHd h f).spFreed = s.spFreed ∧ (s.modHd h f).flitSeq = s.flitSeq ∧ (s.modHd h f).early = s.early ∧
    (s.modHd h f).sprueHeld = s.sprueHeld ∧ (s.modHd h f).fw = s.fw ∧ (s.modHd h f).rst = s.rst ∧ (s.modHd h f).taps = s.taps ∧
    (s.modHd h f).pinsTaken = s.pinsTaken ∧ (s.modHd h f).trstLow = s.trstLow ∧ (s.modHd h f).failoverLeft = s.failoverLeft ∧
    (s.modHd h f).ksOut = s.ksOut ∧ (s.modHd h f).ksOutLate = s.ksOutLate ∧ (s.modHd h f).dead = s.dead ∧
    (s.modHd h f).attached = s.attached ∧ (s.modHd h f).free = s.free ∧ (s.modHd h f).pending = s.pending ∧
    (∀ j, (s.modHd h f).reg j = s.reg j) ∧ (∀ j, (s.modHd h f).cru j = s.cru j) ∧ (∀ j, (s.modHd h f).core j = s.core j) ∧
    (∀ j, (s.modHd h f).quoin j = s.quoin j) ∧ (∀ j, (s.modHd h f).ks j = s.ks j) ∧ (∀ j, (s.modHd h f).hq j = s.hq j) ∧
    (∀ j, (s.modHd h f).ladle j = s.ladle j) ∧ (∀ j, (s.modHd h f).gate j = s.gate j) :=
  ⟨rfl, rfl, rfl, rfl, rfl, rfl, rfl, rfl, rfl, rfl, rfl, rfl, rfl, rfl, rfl, rfl, rfl, rfl, rfl, rfl, rfl, rfl, rfl, rfl, rfl, rfl, rfl,
    rfl, rfl, rfl, rfl, rfl, rfl, rfl, rfl, rfl, rfl, rfl, rfl, rfl, rfl, rfl, rfl, rfl, rfl, rfl, rfl, rfl, rfl, rfl, rfl, rfl, rfl,
    rfl, rfl, rfl, rfl, rfl, fun _ => rfl, fun _ => rfl, fun _ => rfl, fun _ => rfl, fun _ => rfl, fun _ => rfl, fun _ => rfl,
    fun _ => rfl⟩

/-- What `modHd` sets. -/
@[simp] theorem modHd_hd (s : State) (h : Nat) (f : Hd → Hd) : (s.modHd h f).hd h = f (s.hd h) := tblGet_tblSet_self _ _ _ _
@[simp] theorem modHd_hd_ne (s : State) (h : Nat) (f : Hd → Hd) (j : Nat) (hj : j ≠ h) : (s.modHd h f).hd j = s.hd j :=
  tblGet_tblSet_ne _ _ _ _ _ hj

/-- What `modLadle` leaves unchanged. -/
@[simp] theorem modLadle_frame (s : State) (l : Nat) (f : Ladle → Ladle) :
    (s.modLadle l f).build = s.build ∧ (s.modLadle l f).regs = s.regs ∧ (s.modLadle l f).rwcBuf = s.rwcBuf ∧
    (s.modLadle l f).reqs = s.reqs ∧ (s.modLadle l f).sumLast = s.sumLast ∧ (s.modLadle l f).irqSent = s.irqSent ∧
    (s.modLadle l f).tb = s.tb ∧ (s.modLadle l f).fc = s.fc ∧ (s.modLadle l f).ml = s.ml ∧ (s.modLadle l f).crus = s.crus ∧
    (s.modLadle l f).ran = s.ran ∧ (s.modLadle l f).cores = s.cores ∧ (s.modLadle l f).quoins = s.quoins ∧
    (s.modLadle l f).active = s.active ∧ (s.modLadle l f).takeover = s.takeover ∧ (s.modLadle l f).takeLate = s.takeLate ∧
    (s.modLadle l f).mould = s.mould ∧ (s.modLadle l f).mouldPoison = s.mouldPoison ∧ (s.modLadle l f).code = s.code ∧
    (s.modLadle l f).codePoison = s.codePoison ∧ (s.modLadle l f).kss = s.kss ∧ (s.modLadle l f).stack = s.stack ∧
    (s.modLadle l f).stackPoison = s.stackPoison ∧ (s.modLadle l f).net = s.net ∧ (s.modLadle l f).tags = s.tags ∧
    (s.modLadle l f).outst = s.outst ∧ (s.modLadle l f).flasks = s.flasks ∧ (s.modLadle l f).streams = s.streams ∧
    (s.modLadle l f).pours = s.pours ∧ (s.modLadle l f).paused = s.paused ∧ (s.modLadle l f).extents = s.extents ∧
    (s.modLadle l f).sanitizing = s.sanitizing ∧ (s.modLadle l f).placeFm = s.placeFm ∧ (s.modLadle l f).unspec = s.unspec ∧
    (s.modLadle l f).queues = s.queues ∧ (s.modLadle l f).hds = s.hds ∧ (s.modLadle l f).flaskPend = s.flaskPend ∧
    (s.modLadle l f).gates = s.gates ∧ (s.modLadle l f).links = s.links ∧ (s.modLadle l f).sprue = s.sprue ∧
    (s.modLadle l f).wires = s.wires ∧ (s.modLadle l f).spTurn = s.spTurn ∧ (s.modLadle l f).spFreed = s.spFreed ∧
    (s.modLadle l f).flitSeq = s.flitSeq ∧ (s.modLadle l f).early = s.early ∧ (s.modLadle l f).sprueHeld = s.sprueHeld ∧
    (s.modLadle l f).fw = s.fw ∧ (s.modLadle l f).rst = s.rst ∧ (s.modLadle l f).taps = s.taps ∧
    (s.modLadle l f).pinsTaken = s.pinsTaken ∧ (s.modLadle l f).trstLow = s.trstLow ∧ (s.modLadle l f).failoverLeft = s.failoverLeft ∧
    (s.modLadle l f).ksOut = s.ksOut ∧ (s.modLadle l f).ksOutLate = s.ksOutLate ∧ (s.modLadle l f).dead = s.dead ∧
    (s.modLadle l f).attached = s.attached ∧ (s.modLadle l f).free = s.free ∧ (s.modLadle l f).pending = s.pending ∧
    (∀ j, (s.modLadle l f).reg j = s.reg j) ∧ (∀ j, (s.modLadle l f).cru j = s.cru j) ∧ (∀ j, (s.modLadle l f).core j = s.core j) ∧
    (∀ j, (s.modLadle l f).quoin j = s.quoin j) ∧ (∀ j, (s.modLadle l f).ks j = s.ks j) ∧ (∀ j, (s.modLadle l f).hq j = s.hq j) ∧
    (∀ j, (s.modLadle l f).hd j = s.hd j) ∧ (∀ j, (s.modLadle l f).gate j = s.gate j) :=
  ⟨rfl, rfl, rfl, rfl, rfl, rfl, rfl, rfl, rfl, rfl, rfl, rfl, rfl, rfl, rfl, rfl, rfl, rfl, rfl, rfl, rfl, rfl, rfl, rfl, rfl, rfl, rfl,
    rfl, rfl, rfl, rfl, rfl, rfl, rfl, rfl, rfl, rfl, rfl, rfl, rfl, rfl, rfl, rfl, rfl, rfl, rfl, rfl, rfl, rfl, rfl, rfl, rfl, rfl,
    rfl, rfl, rfl, rfl, rfl, fun _ => rfl, fun _ => rfl, fun _ => rfl, fun _ => rfl, fun _ => rfl, fun _ => rfl, fun _ => rfl,
    fun _ => rfl⟩

/-- What `modLadle` sets. -/
@[simp] theorem modLadle_ladle (s : State) (l : Nat) (f : Ladle → Ladle) : (s.modLadle l f).ladle l = f (s.ladle l) := tblGet_tblSet_self _ _ _ _
@[simp] theorem modLadle_ladle_ne (s : State) (l : Nat) (f : Ladle → Ladle) (j : Nat) (hj : j ≠ l) : (s.modLadle l f).ladle j = s.ladle j :=
  tblGet_tblSet_ne _ _ _ _ _ hj

/-- What `modGate` leaves unchanged. -/
@[simp] theorem modGate_frame (s : State) (g : Nat) (f : Gate → Gate) :
    (s.modGate g f).build = s.build ∧ (s.modGate g f).regs = s.regs ∧ (s.modGate g f).rwcBuf = s.rwcBuf ∧ (s.modGate g f).reqs = s.reqs ∧
    (s.modGate g f).sumLast = s.sumLast ∧ (s.modGate g f).irqSent = s.irqSent ∧ (s.modGate g f).tb = s.tb ∧ (s.modGate g f).fc = s.fc ∧
    (s.modGate g f).ml = s.ml ∧ (s.modGate g f).crus = s.crus ∧ (s.modGate g f).ran = s.ran ∧ (s.modGate g f).cores = s.cores ∧
    (s.modGate g f).quoins = s.quoins ∧ (s.modGate g f).active = s.active ∧ (s.modGate g f).takeover = s.takeover ∧
    (s.modGate g f).takeLate = s.takeLate ∧ (s.modGate g f).mould = s.mould ∧ (s.modGate g f).mouldPoison = s.mouldPoison ∧
    (s.modGate g f).code = s.code ∧ (s.modGate g f).codePoison = s.codePoison ∧ (s.modGate g f).kss = s.kss ∧
    (s.modGate g f).stack = s.stack ∧ (s.modGate g f).stackPoison = s.stackPoison ∧ (s.modGate g f).net = s.net ∧
    (s.modGate g f).tags = s.tags ∧ (s.modGate g f).outst = s.outst ∧ (s.modGate g f).flasks = s.flasks ∧
    (s.modGate g f).streams = s.streams ∧ (s.modGate g f).pours = s.pours ∧ (s.modGate g f).paused = s.paused ∧
    (s.modGate g f).extents = s.extents ∧ (s.modGate g f).sanitizing = s.sanitizing ∧ (s.modGate g f).placeFm = s.placeFm ∧
    (s.modGate g f).unspec = s.unspec ∧ (s.modGate g f).queues = s.queues ∧ (s.modGate g f).hds = s.hds ∧
    (s.modGate g f).flaskPend = s.flaskPend ∧ (s.modGate g f).ladles = s.ladles ∧ (s.modGate g f).links = s.links ∧
    (s.modGate g f).sprue = s.sprue ∧ (s.modGate g f).wires = s.wires ∧ (s.modGate g f).spTurn = s.spTurn ∧
    (s.modGate g f).spFreed = s.spFreed ∧ (s.modGate g f).flitSeq = s.flitSeq ∧ (s.modGate g f).early = s.early ∧
    (s.modGate g f).sprueHeld = s.sprueHeld ∧ (s.modGate g f).fw = s.fw ∧ (s.modGate g f).rst = s.rst ∧ (s.modGate g f).taps = s.taps ∧
    (s.modGate g f).pinsTaken = s.pinsTaken ∧ (s.modGate g f).trstLow = s.trstLow ∧ (s.modGate g f).failoverLeft = s.failoverLeft ∧
    (s.modGate g f).ksOut = s.ksOut ∧ (s.modGate g f).ksOutLate = s.ksOutLate ∧ (s.modGate g f).dead = s.dead ∧
    (s.modGate g f).attached = s.attached ∧ (s.modGate g f).free = s.free ∧ (s.modGate g f).pending = s.pending ∧
    (∀ j, (s.modGate g f).reg j = s.reg j) ∧ (∀ j, (s.modGate g f).cru j = s.cru j) ∧ (∀ j, (s.modGate g f).core j = s.core j) ∧
    (∀ j, (s.modGate g f).quoin j = s.quoin j) ∧ (∀ j, (s.modGate g f).ks j = s.ks j) ∧ (∀ j, (s.modGate g f).hq j = s.hq j) ∧
    (∀ j, (s.modGate g f).hd j = s.hd j) ∧ (∀ j, (s.modGate g f).ladle j = s.ladle j) :=
  ⟨rfl, rfl, rfl, rfl, rfl, rfl, rfl, rfl, rfl, rfl, rfl, rfl, rfl, rfl, rfl, rfl, rfl, rfl, rfl, rfl, rfl, rfl, rfl, rfl, rfl, rfl, rfl,
    rfl, rfl, rfl, rfl, rfl, rfl, rfl, rfl, rfl, rfl, rfl, rfl, rfl, rfl, rfl, rfl, rfl, rfl, rfl, rfl, rfl, rfl, rfl, rfl, rfl, rfl,
    rfl, rfl, rfl, rfl, rfl, fun _ => rfl, fun _ => rfl, fun _ => rfl, fun _ => rfl, fun _ => rfl, fun _ => rfl, fun _ => rfl,
    fun _ => rfl⟩

/-- What `modGate` sets. -/
@[simp] theorem modGate_gate (s : State) (g : Nat) (f : Gate → Gate) : (s.modGate g f).gate g = f (s.gate g) := tblGet_tblSet_self _ _ _ _
@[simp] theorem modGate_gate_ne (s : State) (g : Nat) (f : Gate → Gate) (j : Nat) (hj : j ≠ g) : (s.modGate g f).gate j = s.gate j :=
  tblGet_tblSet_ne _ _ _ _ _ hj

/-- What `modTb` leaves unchanged. -/
@[simp] theorem modTb_frame (s : State) (f : Timebase → Timebase) :
    (s.modTb f).build = s.build ∧ (s.modTb f).regs = s.regs ∧ (s.modTb f).rwcBuf = s.rwcBuf ∧ (s.modTb f).reqs = s.reqs ∧
    (s.modTb f).sumLast = s.sumLast ∧ (s.modTb f).irqSent = s.irqSent ∧ (s.modTb f).fc = s.fc ∧ (s.modTb f).ml = s.ml ∧
    (s.modTb f).crus = s.crus ∧ (s.modTb f).ran = s.ran ∧ (s.modTb f).cores = s.cores ∧ (s.modTb f).quoins = s.quoins ∧
    (s.modTb f).active = s.active ∧ (s.modTb f).takeover = s.takeover ∧ (s.modTb f).takeLate = s.takeLate ∧ (s.modTb f).mould = s.mould ∧
    (s.modTb f).mouldPoison = s.mouldPoison ∧ (s.modTb f).code = s.code ∧ (s.modTb f).codePoison = s.codePoison ∧
    (s.modTb f).kss = s.kss ∧ (s.modTb f).stack = s.stack ∧ (s.modTb f).stackPoison = s.stackPoison ∧ (s.modTb f).net = s.net ∧
    (s.modTb f).tags = s.tags ∧ (s.modTb f).outst = s.outst ∧ (s.modTb f).flasks = s.flasks ∧ (s.modTb f).streams = s.streams ∧
    (s.modTb f).pours = s.pours ∧ (s.modTb f).paused = s.paused ∧ (s.modTb f).extents = s.extents ∧
    (s.modTb f).sanitizing = s.sanitizing ∧ (s.modTb f).placeFm = s.placeFm ∧ (s.modTb f).unspec = s.unspec ∧
    (s.modTb f).queues = s.queues ∧ (s.modTb f).hds = s.hds ∧ (s.modTb f).flaskPend = s.flaskPend ∧ (s.modTb f).ladles = s.ladles ∧
    (s.modTb f).gates = s.gates ∧ (s.modTb f).links = s.links ∧ (s.modTb f).sprue = s.sprue ∧ (s.modTb f).wires = s.wires ∧
    (s.modTb f).spTurn = s.spTurn ∧ (s.modTb f).spFreed = s.spFreed ∧ (s.modTb f).flitSeq = s.flitSeq ∧ (s.modTb f).early = s.early ∧
    (s.modTb f).sprueHeld = s.sprueHeld ∧ (s.modTb f).fw = s.fw ∧ (s.modTb f).rst = s.rst ∧ (s.modTb f).taps = s.taps ∧
    (s.modTb f).pinsTaken = s.pinsTaken ∧ (s.modTb f).trstLow = s.trstLow ∧ (s.modTb f).failoverLeft = s.failoverLeft ∧
    (s.modTb f).ksOut = s.ksOut ∧ (s.modTb f).ksOutLate = s.ksOutLate ∧ (s.modTb f).dead = s.dead ∧ (s.modTb f).attached = s.attached ∧
    (s.modTb f).free = s.free ∧ (s.modTb f).pending = s.pending ∧ (∀ j, (s.modTb f).reg j = s.reg j) ∧
    (∀ j, (s.modTb f).cru j = s.cru j) ∧ (∀ j, (s.modTb f).core j = s.core j) ∧ (∀ j, (s.modTb f).quoin j = s.quoin j) ∧
    (∀ j, (s.modTb f).ks j = s.ks j) ∧ (∀ j, (s.modTb f).hq j = s.hq j) ∧ (∀ j, (s.modTb f).hd j = s.hd j) ∧
    (∀ j, (s.modTb f).ladle j = s.ladle j) ∧ (∀ j, (s.modTb f).gate j = s.gate j) :=
  ⟨rfl, rfl, rfl, rfl, rfl, rfl, rfl, rfl, rfl, rfl, rfl, rfl, rfl, rfl, rfl, rfl, rfl, rfl, rfl, rfl, rfl, rfl, rfl, rfl, rfl, rfl, rfl,
    rfl, rfl, rfl, rfl, rfl, rfl, rfl, rfl, rfl, rfl, rfl, rfl, rfl, rfl, rfl, rfl, rfl, rfl, rfl, rfl, rfl, rfl, rfl, rfl, rfl, rfl,
    rfl, rfl, rfl, rfl, rfl, fun _ => rfl, fun _ => rfl, fun _ => rfl, fun _ => rfl, fun _ => rfl, fun _ => rfl, fun _ => rfl,
    fun _ => rfl, fun _ => rfl⟩

/-- What `modFc` leaves unchanged. -/
@[simp] theorem modFc_frame (s : State) (f : Collector → Collector) :
    (s.modFc f).build = s.build ∧ (s.modFc f).regs = s.regs ∧ (s.modFc f).rwcBuf = s.rwcBuf ∧ (s.modFc f).reqs = s.reqs ∧
    (s.modFc f).sumLast = s.sumLast ∧ (s.modFc f).irqSent = s.irqSent ∧ (s.modFc f).tb = s.tb ∧ (s.modFc f).ml = s.ml ∧
    (s.modFc f).crus = s.crus ∧ (s.modFc f).ran = s.ran ∧ (s.modFc f).cores = s.cores ∧ (s.modFc f).quoins = s.quoins ∧
    (s.modFc f).active = s.active ∧ (s.modFc f).takeover = s.takeover ∧ (s.modFc f).takeLate = s.takeLate ∧ (s.modFc f).mould = s.mould ∧
    (s.modFc f).mouldPoison = s.mouldPoison ∧ (s.modFc f).code = s.code ∧ (s.modFc f).codePoison = s.codePoison ∧
    (s.modFc f).kss = s.kss ∧ (s.modFc f).stack = s.stack ∧ (s.modFc f).stackPoison = s.stackPoison ∧ (s.modFc f).net = s.net ∧
    (s.modFc f).tags = s.tags ∧ (s.modFc f).outst = s.outst ∧ (s.modFc f).flasks = s.flasks ∧ (s.modFc f).streams = s.streams ∧
    (s.modFc f).pours = s.pours ∧ (s.modFc f).paused = s.paused ∧ (s.modFc f).extents = s.extents ∧
    (s.modFc f).sanitizing = s.sanitizing ∧ (s.modFc f).placeFm = s.placeFm ∧ (s.modFc f).unspec = s.unspec ∧
    (s.modFc f).queues = s.queues ∧ (s.modFc f).hds = s.hds ∧ (s.modFc f).flaskPend = s.flaskPend ∧ (s.modFc f).ladles = s.ladles ∧
    (s.modFc f).gates = s.gates ∧ (s.modFc f).links = s.links ∧ (s.modFc f).sprue = s.sprue ∧ (s.modFc f).wires = s.wires ∧
    (s.modFc f).spTurn = s.spTurn ∧ (s.modFc f).spFreed = s.spFreed ∧ (s.modFc f).flitSeq = s.flitSeq ∧ (s.modFc f).early = s.early ∧
    (s.modFc f).sprueHeld = s.sprueHeld ∧ (s.modFc f).fw = s.fw ∧ (s.modFc f).rst = s.rst ∧ (s.modFc f).taps = s.taps ∧
    (s.modFc f).pinsTaken = s.pinsTaken ∧ (s.modFc f).trstLow = s.trstLow ∧ (s.modFc f).failoverLeft = s.failoverLeft ∧
    (s.modFc f).ksOut = s.ksOut ∧ (s.modFc f).ksOutLate = s.ksOutLate ∧ (s.modFc f).dead = s.dead ∧ (s.modFc f).attached = s.attached ∧
    (s.modFc f).free = s.free ∧ (s.modFc f).pending = s.pending ∧ (∀ j, (s.modFc f).reg j = s.reg j) ∧
    (∀ j, (s.modFc f).cru j = s.cru j) ∧ (∀ j, (s.modFc f).core j = s.core j) ∧ (∀ j, (s.modFc f).quoin j = s.quoin j) ∧
    (∀ j, (s.modFc f).ks j = s.ks j) ∧ (∀ j, (s.modFc f).hq j = s.hq j) ∧ (∀ j, (s.modFc f).hd j = s.hd j) ∧
    (∀ j, (s.modFc f).ladle j = s.ladle j) ∧ (∀ j, (s.modFc f).gate j = s.gate j) :=
  ⟨rfl, rfl, rfl, rfl, rfl, rfl, rfl, rfl, rfl, rfl, rfl, rfl, rfl, rfl, rfl, rfl, rfl, rfl, rfl, rfl, rfl, rfl, rfl, rfl, rfl, rfl, rfl,
    rfl, rfl, rfl, rfl, rfl, rfl, rfl, rfl, rfl, rfl, rfl, rfl, rfl, rfl, rfl, rfl, rfl, rfl, rfl, rfl, rfl, rfl, rfl, rfl, rfl, rfl,
    rfl, rfl, rfl, rfl, rfl, fun _ => rfl, fun _ => rfl, fun _ => rfl, fun _ => rfl, fun _ => rfl, fun _ => rfl, fun _ => rfl,
    fun _ => rfl, fun _ => rfl⟩

/-- What `modMl` leaves unchanged. -/
@[simp] theorem modMl_frame (s : State) (f : MarkLog → MarkLog) :
    (s.modMl f).build = s.build ∧ (s.modMl f).regs = s.regs ∧ (s.modMl f).rwcBuf = s.rwcBuf ∧ (s.modMl f).reqs = s.reqs ∧
    (s.modMl f).sumLast = s.sumLast ∧ (s.modMl f).irqSent = s.irqSent ∧ (s.modMl f).tb = s.tb ∧ (s.modMl f).fc = s.fc ∧
    (s.modMl f).crus = s.crus ∧ (s.modMl f).ran = s.ran ∧ (s.modMl f).cores = s.cores ∧ (s.modMl f).quoins = s.quoins ∧
    (s.modMl f).active = s.active ∧ (s.modMl f).takeover = s.takeover ∧ (s.modMl f).takeLate = s.takeLate ∧ (s.modMl f).mould = s.mould ∧
    (s.modMl f).mouldPoison = s.mouldPoison ∧ (s.modMl f).code = s.code ∧ (s.modMl f).codePoison = s.codePoison ∧
    (s.modMl f).kss = s.kss ∧ (s.modMl f).stack = s.stack ∧ (s.modMl f).stackPoison = s.stackPoison ∧ (s.modMl f).net = s.net ∧
    (s.modMl f).tags = s.tags ∧ (s.modMl f).outst = s.outst ∧ (s.modMl f).flasks = s.flasks ∧ (s.modMl f).streams = s.streams ∧
    (s.modMl f).pours = s.pours ∧ (s.modMl f).paused = s.paused ∧ (s.modMl f).extents = s.extents ∧
    (s.modMl f).sanitizing = s.sanitizing ∧ (s.modMl f).placeFm = s.placeFm ∧ (s.modMl f).unspec = s.unspec ∧
    (s.modMl f).queues = s.queues ∧ (s.modMl f).hds = s.hds ∧ (s.modMl f).flaskPend = s.flaskPend ∧ (s.modMl f).ladles = s.ladles ∧
    (s.modMl f).gates = s.gates ∧ (s.modMl f).links = s.links ∧ (s.modMl f).sprue = s.sprue ∧ (s.modMl f).wires = s.wires ∧
    (s.modMl f).spTurn = s.spTurn ∧ (s.modMl f).spFreed = s.spFreed ∧ (s.modMl f).flitSeq = s.flitSeq ∧ (s.modMl f).early = s.early ∧
    (s.modMl f).sprueHeld = s.sprueHeld ∧ (s.modMl f).fw = s.fw ∧ (s.modMl f).rst = s.rst ∧ (s.modMl f).taps = s.taps ∧
    (s.modMl f).pinsTaken = s.pinsTaken ∧ (s.modMl f).trstLow = s.trstLow ∧ (s.modMl f).failoverLeft = s.failoverLeft ∧
    (s.modMl f).ksOut = s.ksOut ∧ (s.modMl f).ksOutLate = s.ksOutLate ∧ (s.modMl f).dead = s.dead ∧ (s.modMl f).attached = s.attached ∧
    (s.modMl f).free = s.free ∧ (s.modMl f).pending = s.pending ∧ (∀ j, (s.modMl f).reg j = s.reg j) ∧
    (∀ j, (s.modMl f).cru j = s.cru j) ∧ (∀ j, (s.modMl f).core j = s.core j) ∧ (∀ j, (s.modMl f).quoin j = s.quoin j) ∧
    (∀ j, (s.modMl f).ks j = s.ks j) ∧ (∀ j, (s.modMl f).hq j = s.hq j) ∧ (∀ j, (s.modMl f).hd j = s.hd j) ∧
    (∀ j, (s.modMl f).ladle j = s.ladle j) ∧ (∀ j, (s.modMl f).gate j = s.gate j) :=
  ⟨rfl, rfl, rfl, rfl, rfl, rfl, rfl, rfl, rfl, rfl, rfl, rfl, rfl, rfl, rfl, rfl, rfl, rfl, rfl, rfl, rfl, rfl, rfl, rfl, rfl, rfl, rfl,
    rfl, rfl, rfl, rfl, rfl, rfl, rfl, rfl, rfl, rfl, rfl, rfl, rfl, rfl, rfl, rfl, rfl, rfl, rfl, rfl, rfl, rfl, rfl, rfl, rfl, rfl,
    rfl, rfl, rfl, rfl, rfl, fun _ => rfl, fun _ => rfl, fun _ => rfl, fun _ => rfl, fun _ => rfl, fun _ => rfl, fun _ => rfl,
    fun _ => rfl, fun _ => rfl⟩

end Sys2Proof.Machine
end

