-- ==== Sys2Proof/Laws/Mki.lean ====
section
/-! SUPPORT. The scalar state of a unit under the updates of the state, and the one lemma of `State.front`: what an instruction does on
a unit that can run it. -/

namespace Sys2Proof.Machine

open Sys2Proof

theorem coreIx_inj {e c e' c' : Fin 4} (h : coreIx e c = coreIx e' c') : e = e' ∧ c = c' := by
  simp only [coreIx, coreNo] at h
  constructor <;> apply Fin.ext <;> omega

@[simp] theorem modMki_mki (s : State) (u : MUnit) (f : Mki → Mki) : (s.modMki u f).mki u = f (s.mki u) := by
  cases u <;> simp [State.modMki, State.mki]

theorem modMki_mki_ne (s : State) (u v : MUnit) (f : Mki → Mki) (h : v ≠ u) : (s.modMki u f).mki v = s.mki v := by
  cases u with
  | cru n =>
    cases v with
    | cru m => simp only [State.modMki, State.mki]; rw [modCru_cru_ne]; intro hn; exact h (by rw [Fin.ext hn])
    | core e c => simp [State.modMki, State.mki]
  | core e c =>
    cases v with
    | cru m => simp [State.modMki, State.mki]
    | core e' c' =>
      simp only [State.modMki, State.mki]; rw [modCore_core_ne]
      intro hn; obtain ⟨rfl, rfl⟩ := coreIx_inj hn; exact h rfl

@[simp] theorem wake_mki (s : State) (u v : MUnit) : (s.wake u).mki v = s.mki v := by
  cases u with
  | cru n => rfl
  | core e c =>
    cases v with
    | cru m => simp [State.wake, State.mki]
    | core e' c' =>
      simp only [State.wake, State.mki]
      by_cases h : coreIx e' c' = coreIx e c
      · rw [h]; simp
      · rw [modCore_core_ne _ _ _ _ h]

/-- s0 reads zero. -/
@[simp] theorem sreg_zero (m : Mki) : m.sreg 0 = 0 := rfl

@[simp] theorem setS_pc (m : Mki) (r : Nat) (v : Word) : (m.setS r v).pc = m.pc := by simp only [Mki.setS]; split <;> rfl
@[simp] theorem setS_zero (m : Mki) (v : Word) : m.setS 0 v = m := rfl

/-- A write is read back, but for s0. -/
theorem setS_sreg (m : Mki) (r : Nat) (v : Word) : (m.setS r v).sreg r = if r = 0 then 0 else v := by
  by_cases h : r = 0 <;> simp [Mki.setS, Mki.sreg, h]

/-- Other s registers keep their values. -/
theorem setS_sreg_ne (m : Mki) (r k : Nat) (v : Word) (h : k ≠ r) : (m.setS r v).sreg k = m.sreg k := by
  by_cases h0 : r = 0
  · simp [Mki.setS, h0]
  · by_cases hk : k = 0
    · simp [Mki.sreg, hk]
    · simp [Mki.setS, Mki.sreg, h0, hk, h]

theorem setS_step (m : Mki) (r : Nat) (v : Word) (p : Nat) : Mki.setS { m with pc := p } r v = { m.setS r v with pc := p } := by
  simp only [Mki.setS]; split <;> rfl

/-- `State.front` on a unit that can dispatch: the static checks pass, and the guard decides. -/
theorem front_dispatch {s : State} {u : MUnit} {g : Guard} {r : Uses} (h : s.canDispatch u g r) (ill prof : Bool) (hi : ill = false)
    (hp : prof = false) (whole : Bool) (eff : State → State) :
    s.front u g ill prof r whole eff =
      if whole && !((s.mki u).guard g).getLsbD 0 then s.afterPc u ((s.mki u).pc + 8) else eff (s.wake u) := by
  obtain ⟨h1, h2, h3⟩ := h
  simp [State.front, h1, h2, h3, hi, hp, State.afterPc]

/-- `State.front` on a unit that can run the instruction: its effect. -/
theorem front_run {s : State} {u : MUnit} {g : Guard} {r : Uses} (h : s.canRun u g r) (ill prof : Bool) (hi : ill = false)
    (hp : prof = false) (whole : Bool) (eff : State → State) : s.front u g ill prof r whole eff = eff (s.wake u) := by
  rw [front_dispatch h.1 _ _ hi hp, h.2]; simp

/-- `State.scalar` where it writes an s register. -/
theorem scalar_run {s : State} {u : MUnit} {g : Guard} {r : Uses} (h : s.canRun u g r) (ill : Bool) (hi : ill = false) (f : Mki → Mki) :
    s.scalar u g ill r f = (s.wake u).modMki u (fun m => f { m with pc := m.pc + 8 }) := by
  rw [State.scalar, front_run h _ _ hi rfl]

theorem modMki_congr (s : State) (u : MUnit) (f g : Mki → Mki) (h : f (s.mki u) = g (s.mki u)) : s.modMki u f = s.modMki u g := by
  cases u with
  | cru n => simp only [State.modMki, State.modCru]; rw [show f (s.cru n.val).mki = g (s.cru n.val).mki from h]
  | core e c => simp only [State.modMki, State.modCore]; rw [show f (s.core (coreIx e c)).mki = g (s.core (coreIx e c)).mki from h]

/-- A scalar instruction that writes s[d] from the state before it. -/
theorem scalar_setS {s : State} {u : MUnit} {g : Guard} {r : Uses} (h : s.canRun u g r) (ill : Bool) (hi : ill = false) (d : BitVec 6)
    (op : Mki → Word) (v : Word) (hv : op { s.mki u with pc := (s.mki u).pc + 8 } = v) :
    s.scalar u g ill r (fun m => m.setS d.toNat (op m)) = s.afterS u d v := by
  rw [scalar_run h _ hi, State.afterS]
  apply modMki_congr
  simp only [wake_mki, hv, setS_step]

/-- A scalar instruction that writes p[d] from the state before it. -/
theorem scalar_setP {s : State} {u : MUnit} {g : Guard} {r : Uses} (h : s.canRun u g r) (ill : Bool) (hi : ill = false) (d : BitVec 6)
    (op : Mki → Word) (v : Word) (hv : op { s.mki u with pc := (s.mki u).pc + 8 } = v) :
    s.scalar u g ill r (fun m => m.setP d.toNat (op m)) = s.afterP u d v := by
  rw [scalar_run h _ hi, State.afterP]
  apply modMki_congr
  simp only [wake_mki, hv]; rfl

end Sys2Proof.Machine
end

