-- ==== Sys2Proof/Laws/Transfer.lean ====
section
/-! SUPPORT. Lines of a transfer whose rows do not overlap (R168). -/

namespace Sys2Proof.Machine

open Sys2Proof

/-- The first row of a transfer overlaps nothing. -/
theorem Xfer.over_first (x : Xfer) (p j : Nat) (h : j < x.len) : x.over p j = false := by simp [Xfer.over]; omega

/-- Rows as far apart as they are long overlap nowhere. -/
theorem Xfer.over_apart (x : Xfer) (p j : Nat) (h : 64 * x.len ≤ p) : x.over p j = false := by simp [Xfer.over]; omega

/-- Without overlap a line enters the mould as it came. -/
theorem mouldRow_plain (s : State) (n : Nat) (x : Xfer) (j : Nat) (d : LineData) (p : BitVec 8) (h : x.over x.mp j = false) :
    s.mouldRow n x j d p = s.mouldLine n (x.ma j) d p := by simp [State.mouldRow, h]

/-- Without overlap a line leaves the mould as it stands there. -/
theorem poolRow_plain (s : State) (n : Nat) (x : Xfer) (j : Nat) (h : x.over x.pp j = false) :
    s.poolRow n x j = ((BitVec.ofNat 512 (s.mouldNat n (x.ma j) 64), s.mouldMarks n (x.ma j) != 0), s) := by simp [State.poolRow, h]

end Sys2Proof.Machine
end

