-- ==== Sys2Proof/WellFormed.lean ====
section
/-! DEFINITION. Well-formed commands: what the types of the operands do not say already. -/

namespace Sys2Proof

/-- An agent of Table 11.1: a crucible, a ladle, a control core or a host domain; or the set itself as a reader (log entry 23). -/
def isAgent (a : Nat) : Bool := a < 72 || (0x080 ≤ a && a < 0x0D0) || (0x100 ≤ a && a < 0x180) || a == 0x1FE

/-- A message of the row's kind between an agent and a keystone, on a line of the pool (Tables 1.8, 11.1). -/
def Msg.wf (k : MsgKind) (m : Msg) : Bool := m.kind == k && isAgent m.aid && m.home < 24 && m.line < 2 ^ 35

/-- A register access is aligned to its size (R29). Where it may lie is the command's own matter: what no register answers reads 0 and
ignores writes (R27). -/
def accWf (a : BitVec 32) (sz : AccSize) : Bool :=
  match sz with
  | .b1 => true
  | .b2 => a.toNat % 2 == 0
  | .b4 => a.toNat % 4 == 0
  | .b8 => a.toNat % 8 == 0

/-- Well-formed commands. -/
def wellFormed : Instr → Bool
  | .rds m => m.wf .rds | .rdx m => m.wf .rdx | .upg m => m.wf .upg | .rdc m => m.wf .rdc | .wrf m => m.wf .wrf
  | .wrp m => m.wf .wrp | .wbd m => m.wf .wbd | .wbk m => m.wf .wbk | .evc m => m.wf .evc | .rammerCombine m => m.wf .ram
  | .retry m => m.wf .retry | .rgrant m => m.wf .rgrant | .snpfwds m => m.wf .snpFwdS | .snpfwdx m => m.wf .snpFwdX
  | .snpcur m => m.wf .snpCur | .snpinv m => m.wf .snpInv | .snpgeti m => m.wf .snpGetI | .snpinvg m => m.wf .snpInvG
  | .tagq m => m.wf .tagQ | .snpack m => m.wf .snpAck | .snpdata m => m.wf .snpData | .tagr m => m.wf .tagR
  | .cmp m => m.wf .cmp | .cmpx m => m.wf .cmpX | .datax m => m.wf .dataX | .datad m => m.wf .dataD
  | .datas m => m.wf .dataS | .datal m => m.wf .dataL | .datac m => m.wf .dataC
  | .registerWrite _ a sz _ => accWf a sz | .rwcWrite _ a sz _ => accWf a sz
  | .wideLowRead _ a sz => accWf a sz | .wideHighRead _ a sz => accWf a sz
  | .wideLowWrite _ a sz _ => accWf a sz | .wideHighWrite _ a sz _ => accWf a sz
  | .pendingCancel _ a sz _ => accWf a sz | .intRearm _ a sz _ => accWf a sz
  | .todMessage bytes _ => bytes.length == 16
  | .sprueMessage _ _ m => m.fits
  | _ => true

end Sys2Proof
end

