-- ==== Sys2Proof/Tests/Slice0.lean ====
section
/-! SUPPORT. The model's own tests: ill-formed commands, examples of the spec's text, and for every statement with hypotheses a named
theorem that concrete states and operands meet the hypotheses of each of its clauses. The hypotheses of a clause name their state; one
that several clauses share stands once. -/

namespace Sys2Proof.Tests

open Sys2Proof Sys2Proof.Machine

/-! ## Ill-formed commands, one for each check -/

/-- A request of crucible 0 that passes every check. -/
def goodMsg : Msg := { kind := .rds, aid := 0, home := 0, line := 0 }

theorem test_wf_message : wellFormed (.rds goodMsg) = true := by decide
theorem test_wf_kind : wellFormed (.rds { goodMsg with kind := .rdx }) = false := by decide
theorem test_wf_agent : wellFormed (.rds { goodMsg with aid := 72 }) = false := by decide
theorem test_wf_home : wellFormed (.rds { goodMsg with home := 24 }) = false := by decide
theorem test_wf_line : wellFormed (.rds { goodMsg with line := 2 ^ 35 }) = false := by decide
theorem test_wf_half : wellFormed (.registerWrite .test 1 .b2 0) = false := by decide
theorem test_wf_word : wellFormed (.registerWrite .test 2 .b4 0) = false := by decide
theorem test_wf_double : wellFormed (.registerWrite .test 4 .b8 0) = false := by decide
theorem test_wf_tod : wellFormed (.todMessage (List.replicate 15 0) 0) = false := by decide

theorem test_wf_sprue : wellFormed (.sprueMessage 3 .loc { vn := .req, dest := 5, msg := goodMsg }) = true ∧
    wellFormed (.sprueMessage 3 .loc { vn := .snp, dest := 5, msg := goodMsg }) = false := by decide

/-! ## Words of MKI code, written out by the fields of Table 6.3: OP, PE, PR, PN, and then each format's own -/

theorem test_decode_vfma : mkiDecode (.cru 0)
    (0x60#8 ++ 1#1 ++ 3#4 ++ 1#1 ++ 1#6 ++ 2#6 ++ 3#6 ++ 4#6 ++ 3#10 ++ 2#2 ++ 1#1 ++ 0#5 ++ 0#8) =
    some (.vfmaF32 (.cru 0) ⟨⟨true, 3, true⟩, 1, 2, 3, 4, 2, true, 0, 0⟩) := by decide +kernel
theorem test_decode_addi : mkiDecode (.core 1 2) (0x02#8 ++ 0#1 ++ 0#4 ++ 0#1 ++ 5#6 ++ 6#6 ++ 0#6 ++ 0xFFFFFFFE#32) =
    some (.addi (.core 1 2) ⟨⟨false, 0, false⟩, 5, 6, 0xFFFFFFFE⟩) := by decide +kernel
theorem test_decode_ldd : mkiDecode (.cru 0) (0x20#8 ++ 0#1 ++ 0#4 ++ 0#1 ++ 5#6 ++ 2#6 ++ 3#6 ++ 6#4 ++ 1#2 ++ 0#2 ++ 0xFFFFF8#24) =
    some (.ldd (.cru 0) ⟨⟨false, 0, false⟩, 5, 2, 3, 1, 0, 0xFFFFF8⟩) := by decide +kernel
theorem test_decode_mma : mkiDecode (.cru 0)
    (0x40#8 ++ 0#1 ++ 0#4 ++ 0#1 ++ 1#1 ++ 2#2 ++ 9#6 ++ 10#6 ++ 11#6 ++ 3#5 ++ 4#5 ++ 1#2 ++ 0#1 ++ 1#1 ++ 0#6 ++ 0#9) =
    some (.mma (.cru 0) ⟨⟨false, 0, false⟩, true, 2, 9, 10, 11, 3, 4, 1, false, true, 0⟩) := by decide +kernel
theorem test_decode_scsig : mkiDecode (.cru 0) (0x30#8 ++ 0#1 ++ 0#4 ++ 0#1 ++ 5#5 ++ 6#6 ++ 2#6 ++ 0#1 ++ 7#32) =
    some (.scsig (.cru 0) ⟨⟨false, 0, false⟩, 5, 6, false, 7⟩ 2) := by decide +kernel
/-- R146: an all-zero word spells no instruction; nor does FN 2 of OP 0x1E, nor a reserved opcode. -/
theorem test_decode_undefined : mkiDefined 0 = false ∧ mkiDefined (0x1E#8 ++ 0#17 ++ 2#6 ++ 0#33) = false ∧ mkiDefined (0x1F#8 ++ 0#56) = false := by
  decide +kernel

/-! ## Examples of the spec's text -/

/-- 10_pool_memory_map.md, the example after Table 10.1: three placements in the full build, region 0 WIDE and region 1 NEAR. -/
theorem test_pool_map : State.reset.poolMap 0x38C340 = some (0, 0x25340) ∧ State.reset.poolMap 0x1F23456789 = some (20, 0x14C22E789) ∧
    (State.reset.setReg 0x24008 2).poolMap 0x38C0001040 = some (11, 0x26AAAB040) := by decide +kernel

/-- 05_arithmetic.md, stochastic rounding: 1.1 to E4M3 under RNE, the first draw of generator 0, and the result of SR with it. -/
theorem test_stochastic_rounding : (narrowTo 3 .rne true (f32 0x3F8CCCCD)).1 = 0x39 ∧ genDraw (genNext 1) = 4 ∧
    (narrowTo 3 (.sr 4) true (f32 0x3F8CCCCD)).1 = 0x38 := by decide +kernel

/-- 05_arithmetic.md, block scaling: a block of 300.0 and 0.01 in MXFP8 E4M3; 500.0 saturates. -/
theorem test_block_scale : mxExp 0x13 [f32 0x43960000, f32 0x3C23D70A] = some 0 ∧ (narrowTo 3 .rne true (f32 0x43960000)).1 = 0x79 ∧
    (narrowTo 3 .rne true (f32 0x3C23D70A)).1 = 0x05 ∧ (narrowTo 3 .rne true (f32 0x43FA0000)).1 = 0x7E := by decide +kernel

/-- 13_rammers.md: 16,777,216 + 1.0 is a tie and rounds to even; 1.0 + 1.0 first gives the next value. -/
theorem test_ram_order : (addF32 .rne 0x4B800000 0x3F800000).1 = 0x4B800000 ∧
    (addF32 .rne (addF32 .rne 0x3F800000 0x3F800000).1 0x4B800000).1 = 0x4B800001 := by decide +kernel

/-- 02_register_conventions.md, the RWC example: 0xF0, SET 1, then CLR 0x10. -/
theorem test_rwc_pages : pageWrite .clr (pageWrite .set 0xF0 1 0xFFFFFFFF) 0x10 0xFFFFFFFF = 0xE1 := by decide +kernel

/-- 26_register_index.md: GT_SQ_HEAD of queue 2 of HD 37. -/
theorem test_queue_address : qReg (16 * 37 + 2) 0x20 = 0x082540A0 := by decide +kernel

/-- 26_register_index.md and 28_worked_examples.md: QN_BUILD of the 16-crucible build and of the full build. -/
theorem test_build_register : ({ State.reset with build := .b16 }).reg 8 = 0x01061110 ∧ State.reset.reg 8 = 0x04184840 := by decide +kernel

/-- 18_host_queues_and_journal.md: SEQ 1,000 of a queue with SQ_LOG 8 uses slot 231, at SQ_BASE + 0x7380. -/
theorem test_slot_address : (State.reset.setReg (qReg 594 0x10) 8).slotLine 594 1000 = 0x7380 / 64 := by decide +kernel

/-- 28_worked_examples.md: word 0x10 of a READY and of a BOUND stream of HD 37. -/
theorem test_stream_word : ({ owner := 37, st := .ready, size := 0x4000 : Stream }).words.getD 2 0 = 0x0000025000104000 ∧
    ({ owner := 37, st := .bound, size := 0x4000 : Stream }).words.getD 2 0 = 0x0000025000204000 := by decide +kernel

/-- 19_gates_cxl.md: 1 MiB at PPA 0x40_0020_0000 is 64 fragments of 16 KiB. -/
theorem test_fragments : ({ q := 0, seq := 0, w := [0, 0, 0, 0xFFFFF, 0, 0, 0x4000200000, 0] : LDesc }).unit = 0x4000 ∧
    ({ q := 0, seq := 0, w := [0, 0, 0, 0xFFFFF, 0, 0, 0x4000200000, 0] : LDesc }).frags = 64 := by decide +kernel

/-! ## Hypotheses of the statements about every command -/

theorem witness_CommandsKeepQueueAndBuild : ∃ t, exec .trstN State.reset = .next t := ⟨_, rfl⟩

theorem witness_StepsKeepMemoryForm : State.reset.memFormed = true ∧ ∃ t, step { State.reset with pending := [.trstN] } = .next t :=
  ⟨by decide +kernel, _, rfl⟩

/-! ## States and operands of the witnesses -/

set_option maxRecDepth 8000
set_option linter.unusedVariables false
set_option Elab.async false

def g0 : Guard := ⟨false, 0, false⟩
def u0 : MUnit := .core 0 0
def uc : MUnit := .cru 0
def allFlask : Flask := ⟨0, [(0x8000000000000000, 0x0E0000001FFFFFFF)]⟩
def core0 : State := State.reset.modMki u0 (fun m => ((m.setS 1 0x8000000000000123).setS 2 0xFFFFFFFFFFFFFFF5).setP 1 0xF0F0F0F0F0F0F0F0)
def cru0 : State :=
  { State.reset with flasks := [(1, allFlask)] }.modCru 0 (fun c =>
    { c with st := .running, aclkOn := true, cst := .enabled, mki := { pc := 0x1008, flask := 1, s := [(1, 0x40), (2, 0x2000), (3, 7)], p := [(1, 0xF0F0)] } })
def fE (a imm : Nat) : FmtE := ⟨g0, 0, BitVec.ofNat 6 a, false, BitVec.ofNat 32 imm⟩
def fA : FmtA := ⟨g0, 3, 1, 2, 0, 0, false, 0, 0⟩
def fA0 : FmtA := ⟨g0, 3, 1, 0, 0, 0, false, 0, 0⟩
def fB : FmtB := ⟨g0, 3, 1, 0xFFFFFFF5⟩
def fBd : FmtB := ⟨g0, 3, 0, 0x12345678⟩
def state1_1 : State := core0.modMki u0 (fun m => (m.setS 1 0x8000000000000000).setS 2 (BitVec.allOnes 64))
def gz : Guard := ⟨true, 0, false⟩
def fAz : FmtA := ⟨gz, 3, 1, 2, 0, 0, false, 0, 0⟩
def fBzz : FmtB := ⟨gz, 0, 1, 0x10⟩
def fEz : FmtE := ⟨gz, 0, 0, false, 7⟩
def fBc : FmtB := ⟨gz, 3, 1, 0x10⟩
def fCz : FmtC := ⟨gz, 3, 2, 0, 0, 0, 8⟩
def fAr : FmtA := { fA with c := 1 }
def fD0 : FmtD := ⟨g0, false, 1, 0, 0, 0, 0, 0, 0, false, false, 0⟩
def fC0 : FmtC := ⟨g0, 3, 2, 0, 0, 0, 8⟩
def fBr : FmtB := ⟨g0, 0, 0, 0xFFFFFFF5⟩
def state2_1 : State := core0.modMki u0 (fun m => {m with epc := 0x40, inTrap := true})
def coreI : State := (core0.modMki u0 (fun m => {m with ie := true, ien := 0xFFFFFFFF, evec := 0x4000})).modCore 0 (fun c => {c with ipi := true, wfi := true})
def seqB : State := cru0.modCru 0 (fun c => {c with seqw := .mortar})
def pcBad : State := cru0.modCru 0 (fun c => {c with mki := {c.mki with pc := 0x1004}})
def xI : CLine := ⟨.s, 0x0000000000000000_0000000000000000_0000000000000000_0000000000000000_0000000000000000_0000000000000000_01000C0000000000_0000000000000000, 0, 0⟩
def icS (d : LineData) : State := cru0.modCru 0 (fun c => {c with ic := [(0x40, (d, 0))]})
def state2b_1 : State := cru0.modCru 0 (fun c => {c with cache := [(0x40, xI)]})
def hm (s : State) (l : Nat) : Nat := (s.homeUp l).getD 99
def state2b_2 : State := core0.modMki u0 (fun m => {m with pc := 0x1000})
def codeZ : State := core0.modMki u0 (fun m => {m with pc := core0.codeWindow + 0x100000})
def codeI : State := { codeZ with code := memWrite [] 0x100000 (leBytes 8 0x01000C0000000000) }
def fS : FmtE := ⟨g0, 5, 1, false, 3⟩
def state2b_3 : FmtE := ⟨g0, 5, 1, false, 0⟩
def state2b_4 : State := cru0.modCru 0 (fun c => {c with sc := [(5, 0x43)]})
def state2b_5 : State := cru0.modCru 0 (fun c => {c with sc := [(5, 0xFFFFFFFF)]})
def full16 : List QEntry := List.replicate 16 (.wait 1 9)
def state2b_6 : State := cru0.modCru 0 (fun c => {c with mq0 := full16, mq1 := full16, vq := full16, xq := full16})
def state2b_7 : State := cru0.modCru 0 (fun c => {c with vq := [.sig 5 7 0x1000 2]})
def tkS (f : Cru → Cru) : State := cru0.modCru 0 f
def state2b_8 : State := tkS (fun c => {c with vq := [.sig 5 7 0x1000 2], mq0 := [.sig 5 7 0x1000 2], mq1 := [.sig 5 7 0x1000 2]})
def state2b_9 : State := tkS (fun c => {c with xq := [.sig 5 7 0x1000 2]})
def acS : Access := { aid := 0, home := 1, line := 0x123, store := true, tag := 9 }
def state2b_10 : State := { tkS (fun c => {c with xq := [.sig 5 7 0x1000 2]}) with outst := [acS] }
def state2b_11 : State := tkS (fun c => {c with sc := [(5,0xFFFFFFFF)], vq := [.sig 5 7 0x1000 2]})
def state2b_12 : State := tkS (fun c => {c with sc := [(5,9)], xq := [.wait 5 7], seqw := .scwait 5 7})
def state2b_13 : State := tkS (fun c => {c with sc := [(5,9)], mq0 := [.wait 5 7], mq1 := [.wait 5 7], vq := [.wait 5 7]})
def state2b_14 : State := tkS (fun c => {c with sc := [(5,3)], mq0 := [.wait 5 7], seqw := .scwait 5 7})
def state2b_15 : State := cru0.modCru 0 (fun c => {c with seqw := .mortar})
def state2b_16 : State := core0.modCore 0 (fun c => {c with wait := .mortar})
def enS : Charge := { arg := 0, course := 5, count := 1, stride := 0, first := 0, cruc := 0, run := .started, deadline := 6, dueDeadline := 6, bound := 6 }
def enP : State := { cru0 with pours := [(3, { desc := [0x1000, 0, 0x40000, 0, 0, 0x100000000, 0, 0], owner := 0x105, opened := 1, ring := [(1, enS)] })] }.modCru 0 (fun c => {c with seqw := .ending 3, charge := some (3, 1)})
def state2b_17 : State := cru0.modCru 0 (fun c => {c with seqw := .ending 3})
def lanesOf (x d : Nat) : VReg := BitVec.ofNat 2048 ((List.range 64).foldl (fun acc k => acc + ((x + d * k) % 2 ^ 32) * 2 ^ (32 * k)) 0)
def vec0 : State := { cru0 with mould := [(0x2001, 7), (0x2005, 0x81)], mouldPoison := [] }.modCru 0 (fun c =>
  { c with v := [(1, lanesOf 0x3F800000 0x123457), (2, lanesOf 0xBF400000 0x765431), (3, lanesOf 5 3), (4, lanesOf 0x7FC00001 0x100)] })
def vA (d a b c : Nat) (rm : BitVec 2) (ty : BitVec 5) (sat : Bool := false) : FmtA := ⟨g0, BitVec.ofNat 6 d, BitVec.ofNat 6 a, BitVec.ofNat 6 b, BitVec.ofNat 6 c, rm, sat, ty, 0⟩
def vG (d a b c : Nat) (rm : BitVec 2) (ty : BitVec 5) : FmtA := { vA d a b c rm ty with g := ⟨true, 1, false⟩ }
def vC (d base idx : Nat) (off : BitVec 24) : FmtC := ⟨⟨true, 1, false⟩, BitVec.ofNat 6 d, BitVec.ofNat 6 base, BitVec.ofNat 6 idx, 0, 0, off⟩
def vG1 (d a b c : Nat) (ty : BitVec 5) : FmtA := { vA d a b c 0 ty with g := ⟨true, 1, false⟩ }
def vec3 : State := vec0.modCru 0 (fun c => { c with mki := (c.mki.setS 2 0x5FFFE0) })
def vec4 : State := { vec0 with mouldPoison := [0x401] }
def fD (t sa sb sx : Nat) (tya : BitVec 5) (tyb : BitVec 5 := 0) (rm : BitVec 2 := 0) (sat : Bool := false) (z : Bool := false) : FmtD :=
  ⟨g0, false, BitVec.ofNat 2 t, BitVec.ofNat 6 sa, BitVec.ofNat 6 sb, BitVec.ofNat 6 sx, tya, tyb, rm, sat, z, 0⟩
def tile0 : State := { cru0 with mould := memWrite [] 0x2000 (leBytes 512 (lanesOf 0x40000000 0x3001).toNat) }.modCru 0 (fun c =>
  { c with t := [(64, lanesOf 0x3F800000 0x123457), (65, lanesOf 0xBF400000 0x765431), (66, lanesOf 5 3)] })
def tile1 : State := { tile0 with mould := [(5, 7)] }
def til2 (s1 : Word) (poi : List Nat) : State := { tile0 with mouldPoison := poi }.modCru 0 (fun c => { c with mki := c.mki.setS 2 s1 })
def cln1 : CLine := ⟨.x, BitVec.ofNat 512 0x8899AABBCCDDEEFF80112233F4556677, 0, 0⟩
def clnS : CLine := { cln1 with st := .s }
def clnP : CLine := { cln1 with st := .d, poison := 0xFF }
def mem0 : State := { cru0 with mould := memWrite [] 0x40 ((List.range 64).map (fun k => BitVec.ofNat 8 (200 + 3 * k))) }.modCru 0 (fun c => { c with cst := .enabled, cache := [(0x80, cln1)], xq := [], t := [] })
def memC (x : CLine) : State := mem0.modCru 0 (fun c => { c with cache := [(0x80, x)] })
def memA : State := mem0.modCru 0 (fun c => { c with cache := [] })
def memB : State := memA.modCru 0 (fun c => { c with cst := .bypass })
def lostK (m : State) : State := { m with regs := tblSet m.regs 0x24004 (BitVec.ofNat 32 (0xFFFFFFFF - 2 ^ hm cru0 0x80)) }
def memL0 : State := lostK memA
def memT (m : State) : State := m.modCru 0 (fun c => { c with mki := c.mki.setS 2 0x20000002008 })
def mC (d b idx : Nat) (off : BitVec 24) : FmtC := ⟨g0, BitVec.ofNat 6 d, BitVec.ofNat 6 b, BitVec.ofNat 6 idx, 0, 0, off⟩
def coreM : State := { core0 with code := memWrite [] 0x500000 ((List.range 16).map (fun k => BitVec.ofNat 8 (0xF0 + 3 * k))) }.modMki u0 (fun m => m.setS 2 (BitVec.ofNat 64 (core0.codeWindow + 0x500000)))
def coreF : State := { core0 with flasks := [(0, allFlask)] }
def coreP : State := coreF.modMki u0 (fun m => (m.setS 2 0x2000).setS 3 7)
def coreL : State := lostK coreP
def coreT : State := coreP.modMki u0 (fun m => m.setS 2 0x20000002008)
def hl : Nat := hm cru0 0x80
def clnD : CLine := { cln1 with st := .d }
def devFlask : Flask := ⟨0, [(0x8000000000000000, 0x0E00000000000002), (0x8000000000002000, 0x1E0000001FFFFFF0)]⟩
def memDev : State := { memA with flasks := [(1, devFlask)] }
def heldHere (r : Option Nat) (m : State) : State := { m with regs := tblSet m.regs 0x2C000 0x100 }.modCru 0 (fun c => { c with resv := r })
def memR0 : State := heldHere none mem0
def memR1 : State := heldHere (some 0x80) mem0
def memRD : State := heldHere (some 0x80) memDev
def memRm : State := memA.modMki uc (fun m => m.setS 4 0x40)
def memRl : State := memL0.modMki uc (fun m => m.setS 4 0x40)
def fCln : FmtC := mC 0 2 0 8
def cl_d : CLine := { cln1 with st := .d }
def mem_d : State := memC cl_d
def cl_x : CLine := { cln1 with st := .x }
def mem_x : State := memC cl_x
def cl_s : CLine := { cln1 with st := .s }
def mem_s : State := memC cl_s
def xW (len rows : Nat) : Word := BitVec.ofNat 64 (len + 4096 * rows)
def xfS (m : State) (p mo : Nat) (w : Word) : State := m.modMki uc (fun k => ((k.setS 2 (BitVec.ofNat 64 p)).setS 5 (BitVec.ofNat 64 mo)).setS 4 w)
def xD5 : FmtD := fD 0 2 5 4 0
def xfT : State := xfS mem0 0x2008 0x40 (xW 1 1)
def xfP : State := xfS (mem0) 0x2000 0x40 (xW 1 1)
def xfA : State := xfS (memA) 0x2000 0x40 (xW 1 1)
def sm0 : Stream := { leafA := 0x1FC0, leafB := 0x4FC0, pour := 3, st := .bound, size := 0x100 }
def sm1 : Stream := { sm0 with leafA := 0x4FC0, leafB := 0x1FC0 }
def lfS (m : State) (st : Stream) : State := { m with streams := [(5, st)] }.modCru 0 (fun c => { c with charge := some (3, 1), mki := ((c.mki.setS 2 5).setS 4 0x40).setS 6 0x40 })
def lf0 : State := lfS mem0 sm0
def lfA : State := lfS memA sm0
def lf1 : State := lfS mem0 sm1
def lfA1 : State := lfS memA sm1
def lfN : State := lfS mem0 { sm0 with st := .free }
def rc : Requester := .core 0 0
def run0 : State := { core0 with tb := { core0.tb with running := true } }
def canS : State := { run0 with rwcBuf := [(aLd 0x4004, 3), (aCr 3 0xC, 5)], fc := { core0.fc with chill := true } }.setReg (aFt 0xFF4) 4
def rqA : Nat := aCr 3 0x10
def rqS : State := { core0 with reqs := [] }.modReq (.core 0 0) (fun r => { r with rd := some ⟨rqA, [(1, (0x77, Page.base))]⟩, wr := some ⟨rqA, [(0, (0x88, Page.tog))]⟩ })
def wr1 : List (Nat × Reg × Page) := [(1, (0x77, Page.base))]
def heldS : State := { core0 with rst := { core0.rst with afterChip := true, steps := [] } }
def dvS : State := core0.modMki u0 (fun m => m.setS 2 (BitVec.ofNat 64 (aCr 3 0x10)))
def ksO : Nat := aKs 2 0xC640
def dvK : State := ({ core0 with kss := [] }.modKs 2 (fun k => { k with stopped := true })).modMki u0 (fun m => m.setS 2 (BitVec.ofNat 64 ksO))
def dvR : State := core0.modMki u0 (fun m => m.setS 2 0x100000008)
def dvM : State := core0.modMki u0 (fun m => m.setS 2 (BitVec.ofNat 64 (aCr 3 0x11)))
def fm0 : FmtC := mC 5 2 0 0
def dvC (o : Nat) : State := cru0.modMki uc (fun m => m.setS 2 (BitVec.ofNat 64 (aCr 0 o)))
def dvCR : State := cru0.modMki uc (fun m => m.setS 2 0x100000008)
def tapS : State := { core0 with trstLow := false }
def tapL : State := { core0 with trstLow := true }
def tbS (f : Timebase → Timebase) : State := { core0 with tb := f { core0.tb with now := 1000000, lastEdge := some 1000000, lost := false, edgeTime := 5000000000, curN := 8, nextN := 8 } }
def state7_1 : State := tbS (fun b => { b with clean := 63, tagged := [(1000500, 5000125005)] })
def state7_2 : State := tbS (fun b => { b with clean := 5, timeValid := true, tagged := [(1000500, 5000125005)] })
def state7_5 : State := tbS (fun b => { b with corr := .halfRate 70000 })
def state7_7 : State := tbS (fun b => { b with running := true })
def state7_8 : State := tbS (fun b => { b with running := true, holdover := true })
def state7_9 : State := tbS (fun b => { b with running := true, holdover := true, armed := true, frame := 8 })
def tbA : State := tbS (fun b => { b with running := true, holdover := true, armed := true, frame := 8, genPassed := some 5000125000, lastReal := some 1002000 })
def tbB : State := tbS (fun b => { b with running := true, holdover := true, relockClean := 63, lastReal := some 1002000 })
def todB (crc : Byte) : List Byte := [0x5A,1,0x10,0,0,0,0,0,5,0,0,0,0,0, 0, crc]
def state7_10 : State := tbS (fun b => { b with corr := .halfRate 0 })
def state7_11 : State := run0.setReg (aCo 0) 3
def todG : List Byte := [0x5A,1,0x10,0,0,0,0,0,5,0,0,0,0,0, 0xB9, 0x68]
def due0 : State := tbS (fun b => { b with running := true, due := true, dueTime := 5000125000, edgeTime := 5000125000, course := 2 ^ 48 - 1, unjudged := false, fwdStep := some 7 })
def state8_1 : State := { due0 with fc := { due0.fc with hbLost := true } }
def accD : Access := { aid := 0x105, home := 3, line := 0x123, store := true, tag := 9, age := 200 }
def state8_2 : State := { due0 with outst := [accD] }
def ch0 : Charge := { arg := 0, course := 5, count := 1, stride := 0, first := 0, cruc := 4, run := .started, deadline := 6, dueDeadline := 6, bound := 6 }
def ch0x : Charge := { ch0 with excused := true }
def ch0y : Charge := { ch0 with deadline := 9 }
def ch0z : Charge := { ch0 with cruc := 3 }
def po0 (c : Charge) : Pour := { desc := [0x1000, 0, 0x40000, 0, 0, 0x100000000, 0, 0], owner := 0x105, opened := 1, ring := [(1, c)] }
def due7 : State := tbS (fun b => { b with running := true, due := true, dueTime := 5000125000, edgeTime := 5000125000, course := 7, unjudged := false, fwdStep := some 7 })
def duP (c : Charge) : State := { due7 with pours := [(3, po0 c)] }.setFld 0x20000 0 1 1
def duPf : State := (duP ch0z).modCru 3 (fun c => { c with st := .failed })
def duPr : State := (duP ch0z).modCru 3 (fun c => { c with st := .running, charge := some (3, 1) })
def state8_4 : State := { due0 with fc := { due0.fc with chill := true, cleanLeft := 1 } }
def hand0 : State := { due0 with quoins := [(0, { passed := true, booted := true, beats := 15, handover := true }), (1, { passed := true, booted := true, beats := 15, beatRun := 9 })] }
def hb0 : State := { due0 with quoins := [(0, { passed := true, booted := true, beats := 7, missRun := 9 })] }
def fz0 : State := { due0 with ml := { due0.ml with frozen := true, frozenCourses := 255, missed := 3, lastTime := 5 } }
def cruS (st : CruSt) (f : Cru → Cru := id) : State := core0.modCru 3 (fun c => f { c with st := st, aclkOn := true, cst := .enabled, mki := { pc := 0x40, s := [(1, 9)] } })
def cmd8 : Nat → Instr × CruCmd
  | 0 => (.start rc 3, .start) | 1 => (.stop rc 3, .stop) | 2 => (.resume rc 3, .resume) | 3 => (.abort rc 3, .abort) | 4 => (.reset rc 3, .reset)
  | 5 => (.standby rc 3, .standby) | 6 => (.wake rc 3, .wake) | _ => (.retire rc 3, .retire)
def state8_5 : State := cruS .running (fun c => { c with trap := some ⟨2, 5, 0x40, 0x48⟩ })
def state8_6 : State := cruS .standby (fun c => { c with standbyBusy := true })
def tI : TrapInfo := ⟨2, 5, 0x40, 0x48⟩
def state8_7 : State := cruS .stopping (fun c => { c with stopBy := .abort })
def T3 (x : CruSt) (f : Cru → Cru) : State := cruS x f
def state8_8 : State := T3 .stopping (fun c => { c with stopBy := .stop })
def state8_9 : State := T3 .stopping (fun c => { c with stopBy := .stop, trap := some tI })
def state8_10 : State := T3 .stopping (fun c => { c with stopBy := .abort })
def rsC : State := { cru0 with mould := [(5, 7), (0x800005, 8)] }.modCru 0 (fun c => { c with st := .resetting, stopBy := .invalidate, cst := .enabled })
def rsF : State := rsC.modCru 0 (fun c => { c with stopBy := .invalidateFailed })
def state8_11 : State := T3 .standby (fun c => { c with standbyBusy := true })
def state8_12 : State := T3 .retiring (fun c => { c with stopBy := .retire })
def fs1 : CruFailure := .tagParity 5
def state8_13 : State := T3 .running (fun c => { c with trap := some tI })
def chS : State := { cruS .idle with pours := [(3, po0 ch0)] }.modCru 3 (fun c => { c with work := [(3, 1), (4, 2)] })
def chF : Charge := { ch0 with run := .flushing 5 false }
def chT : State := { cruS .idle with pours := [(3, po0 chF)] }.modCru 3 (fun c => { c with charge := some (3, 1) })
def foS : State := { cruS .failed with fc := { core0.fc with failReports := [3, 5] } }.setFld (aCr 3 8) 8 2 1
def w64 (n : Nat) : Word := BitVec.ofNat 64 n
def seg (base pages : Nat) (x w r : Bool) : Word × Word :=
  (BitVec.ofNat 64 (2 ^ 63 + base * 4096), BitVec.ofNat 64 ((b2n x) * 2 ^ 59 + (b2n w) * 2 ^ 58 + (b2n r) * 2 ^ 57 + pages))
def flask2 : Flask := ⟨1, [seg 1 1 true false true, seg 0x40 0x40 false false true, seg 0x100 0x1000 false true true]⟩
def ext0 : Extent := { first := 0, len := 4, tag := 0, st := .granted, holders := [1] }
def hqOf (lad : Nat) (f : HostQ → HostQ) : State :=
  ((({ core0 with flasks := [(2, flask2)], extents := [(0, ext0)], gates := [(0, { up := true })], hds := [(1, { bme := true, order := [] })], streams := [(0x70, { leafA := 0x100000, leafB := 0x200000, owner := 1, st := .ready, size := 2 }), (0x71, { leafA := 0x300000, leafB := 0x400000, owner := 1, st := .ready, size := 2 }),             (0x72, { owner := 1, st := .bound, pour := 9 })], queues := [(0x15, f { st := .running, sqHead := 6, sqDb := 9 })] }).setReg (qReg 0x15 0x10) (BitVec.ofNat 32 (0x404 + lad * 2 ^ 16))).setReg64 (qReg 0x15 0) 0x800000).setReg64 (qReg 0x15 8) 0x900000
def hq0 : State := hqOf 15 id
def ca (p0 p1 resp : Nat) (ws : List Word := []) : CmdArgs := ⟨ws ++ List.replicate (8 - ws.length) 0, 77, BitVec.ofNat 64 p0, BitVec.ofNat 64 p1, BitVec.ofNat 64 resp⟩
def state9_1 : State := hqOf 15 (fun x => { x with st := .stopped })
def poD : List Word := [0x1000, 0, 0x40000, w64 (2 * 2 ^ 18 + 0x70), 100, w64 (2 ^ 52 + 15 * 2 ^ 48 + 2 * 2 ^ 32), 1, 0]
def poX : Pour := { desc := poD, owner := 1, opened := 0 }
def hqP : State := { hq0 with pours := [(0, poX)] }
def hqK : State := { hq0 with flasks := [(2, { flask2 with owner := 3 })] }
def state9_2 := { flask2 with owner := 3 }
def ladW : List Word := [w64 (2 * 2 ^ 32 + 1), 0xDEAD00, w64 (2 * 2 ^ 44 + 0x40), 0x7F, 0, 0, 0, 0]
def ladC : CmdArgs := ⟨ladW, 0, 0, 0, 0⟩
def ladX : List Word := ladW.take 6 ++ [0x100040, 0]
def hqL : State := hqOf 0 id
def state9_3 := { ladC with response := 1 }
def heldQ : State := { hq0 with rst := { hq0.rst with afterChip := true, steps := [] } }
def hqD : State := hqOf 15 (fun x => { x with st := .disabled, sqDb := 6 })
def hqC : State := hqOf 15 (fun x => { x with cqHead := 2, cqTail := 4, entries := [(3, { slot := ⟨0, ca 0 0 0, [], false⟩, st := .written }), (4, { slot := ⟨0, ca 0 0 0, [], false⟩, st := .written }), (5, { slot := ⟨0, ca 0 0 0, [], false⟩, st := .done, status := 9 })] })
def lnN (n : Nat) : LineData := BitVec.ofNat 512 (0x1234 + n * 2 ^ 448)
def rdl (n : Nat) (a b : Option (Option LineData)) : Tbl OwnRd := [(0x800000 / 64 + 2 * (n - 1), { tag := 1, got := a }), (0x800000 / 64 + 2 * (n - 1) + 1, { tag := 2, got := b })]
def hqR (n : Nat) : State := hqOf 15 (fun x => { x with reads := rdl 7 (some (some 0xABCDEF)) (some (some (lnN n))) })
def hqRR (k : Nat) : State := hqOf 15 (fun x => { x with retries := k, reread := true, reads := rdl 7 (some (some 0xABCDEF)) (some (some (lnN 6))) })
def jeT : JEntry := { slot := ⟨0, ca 0 0 0, [], false⟩, st := .taken }
def hqT : State := hqOf 15 (fun x => { x with entries := [(7, jeT)] })
def jeD : JEntry := { slot := ⟨0, ca 0 0 0, [], false⟩, st := .done, status := 9 }
def hqD2 : State := hqD.setReg64 (qReg 0x15 0) 0x80000000
def ordS (o : List Nat) (m : State) : State := { m with hds := [(1, { bme := true, order := o })] }
def hqS : State := hqOf 15 (fun x => { x with st := .stopped, cause := 2 })
def hqU : State := hqOf 15 (fun x => { x with st := .suspended, cause := 4, backSt := .running })
def ntS : State := { hq0 with hds := [(1, { bme := true, order := [], nqHead := 3, nqTail := 5, notices := [⟨1, [5]⟩, ⟨2, [6]⟩] })] }.setReg (nqReg 1 0x408) 0x104
def state9b_1 : Notice := ⟨1, [5]⟩
def state9b_2 : List Notice := [⟨2, [6]⟩]
def dsc0 : LDesc := { q := 0x15, seq := 7, w := [w64 (2 * 2 ^ 32 + 1), 0xDEAD00, w64 (2 * 2 ^ 44 + 0x40), 0x7F, 0, 0, 0x100040, 0], next := 0x100040 / 64 }
def opD (o : Nat) : LDesc := { dsc0 with w := w64 (2 * 2 ^ 32 + o) :: dsc0.w.drop 1 }
def ldS (f : Ladle → Ladle) (d : LDesc := dsc0) : State := { hq0 with ladles := [(2, f { opened := true, descs := [d] })] }
def dsc1 : LDesc := { dsc0 with next := 0x1000C0 / 64 }
def dsc2 : LDesc := opD 2
def dsc5 : LDesc := opD 5
def lateD : LDesc := { dsc0 with w := dsc0.w.set 4 (w64 (2 ^ 40)) }
def nomay : State := { ldS id with gates := [(0, { up := false })] }
def hl2 : Nat := hm hq0 (0x100040 / 64)
def ldF : State := { hqOf 15 (fun x => { x with entries := [(7, { jeT with st := .accepted })] }) with ladles := [(2, { descs := [dsc1] })] }
def jeA : JEntry := { jeT with st := .accepted }
def dscF : LDesc := { dsc2 with next := 0x4003, fail := 1, unsent := [0x4002] }
def ldFp : State := { ldF with ladles := [(2, { descs := [dscF] })] }
def lrq2 : LReq := { frag := 0, line := 0x4001, off := 0, len := 64, ph := .reads [5] [] }
def dscO : LDesc := { dsc2 with next := 0x4002, reqs := [lrq2] }
def mDc : Msg := { kind := .dataC, aid := 0x82, home := 0, line := 0x4001, data := 0xABCD, tag := 5 }
def state9b_3 := { mDc with poison := true }
def ldB : State := { ldF with fc := { core0.fc with blkLd := [2] } }
def ldTs : State := ldS (fun x => { x with testing := true })
def lrq : LReq := { frag := 0, line := 0x100040 / 64, off := 0, len := 64, ph := .host 5 }
def dsc3 : LDesc := { dsc1 with reqs := [lrq] }
def htg : HTag := { hd := 1, ladle := 2 }
def htgD : HTag := { htg with discard := true }
def ldH (t : HTag) : State := { hq0 with ladles := [(2, { opened := true, descs := [dsc3] })], gates := [(0, { up := true, tags := [(5, t)] })] }
def kH : Nat := ((cru0.homeOf 0x80).getD (99, 0)).1
def slH : Nat := ((cru0.homeOf 0x80).getD (99, 0)).2
def hl0 : HLine := { data := 0xABCDEF0123456789, poison := false, dirty := false, nru := false, way := 0 }
def hmS (f : Ks → Ks) : State := { cru0 with kss := [(kH, f { hst := .enabled, hearth := [(slH, hl0)] })], attached := [5], gates := [(0, { up := true, info := { cru0.gate 0 |>.info with flit := 2 } })], extents := [(0, { ext0 with holders := [5] })], crus := (List.range 8).map (fun n => (n, { st := .standby })) }.setFld (aKs kH 0xC000) 0 1 1
def mq (kd : MsgKind) : Msg := { kind := kd, aid := 0, home := kH, line := 0x80, tag := 9, data := 0x3F8000003F8000003F800000, mask := 0xFF0F, op := 1 }
def hmI : State := hmS id
def m0 : Msg := mq .rds
def state10_1 : State := hmI.setReg 0x28000 0xFFFFFF00
def dirS (st : DirSt) : State := hmS (fun x => { x with dir := [(slH, { line := 0x80, st := st, way := 3 })] })
def v03 : BitVec 25 := vecAdd (vecAdd 0 0) 3
def v00 : BitVec 25 := vecAdd 0 0
def state10_2 : State := (dirS (.hs none v03)).modCru 3 (fun c => { c with st := .idle })
def state10_3 : State := { hmI with net := [mq .wrf, m0] }
def tx0 : Txn := { line := 0x80, sla := slH, kind := .client, phase := .main, req := { mq .rdx with aid := 3 }, way := some 3, snp := some .snpFwdX, wait := [0], fwd := true }
def txS (t : Txn) : State := hmS (fun x => { x with dir := [(slH, { line := 0x80, st := .he 0, way := 3 })], txns := [t] })
def tx0s : Txn := { tx0 with req := { mq .rds with aid := 3 }, snp := some .snpFwdS }
def tx0e : Txn := { line := 0x80, sla := slH, kind := .evict, phase := .main, req := mq .rdx, way := some 3, snp := some .snpGetI, wait := [0] }
def ackM (a : AckState) : Msg := { mq .snpAck with ack := a }
def tx1 : Txn := { line := 0x80, sla := slH, kind := .reclaim, phase := .tagq, req := { mq .rdx with aid := 3 }, wait := [0] }
def rg0 : Nat × Nat × Msg := (5, 6, { mq .rdx with aid := 7 })
def rgS : State := hmS (fun x => { x with resv := [rg0] })
def rgM : Msg := { mq .rgrant with aid := 7 }
def swS : State := hmS (fun x => { x with sweeping := true, sweep := [9] })
def cl4 (st : CSt) : CLine := { cln1 with st := st }
def clS : CLine := cl4 .s
def clD : CLine := cl4 .d
def snS (st : CSt) : State := hmI.modCru 3 (fun c => { c with st := .running, cst := .enabled, cache := [(0x80, { cln1 with st := st }), (0x81, { cln1 with st := .s }), (0x180, { cln1 with st := .s })] })
def snM : Msg := { mq .snpInv with aid := 3, other := 6 }
def state10_5 : State := (snS .d).modCru 3 (fun c => { c with cache := [] })
def cI : Nat := cacheIndex 0x80
def state10_6 : State := (snS .d).modCru 3 (fun c => { c with st := .failed, tagBad := [cI] })
def state10_7 : State := (snS .d).modCru 3 (fun c => { c with st := .resetting, cst := .invalidating })
def rqM : Msg := { mq .cmp with aid := 3, tag := 9 }
def acR : Access := { aid := 3, home := 2, line := 0x80, store := true, tag := 9 }
def acW : Access := { acR with wb := true }
def state10_8 : State := { snS .s with outst := [acR] }
def state10_9 : State := ({ snS .s with outst := [acW] }).modCru 3 (fun c => { c with wb := [(0x80, { st := .d, data := 5, poison := false, byRange := false, keep := false })] })
def rqMs : Msg := { rqM with aid := aidSet }
def msE : Miss := { req := .rdx, tag := 9, noInst := false, fetch := false }
def state10_10 : State := (snS .s).modCru 3 (fun c => { c with miss := [(0x80, msE)] })
def state10_11 : State := (snS .s).modCru 3 (fun c => { c with cache := [], miss := [(0x80, msE)] })
def qI : QItem := { ins := .nop 0 ⟨[], 0, 0, 0, 0⟩, pc := 0x40, sv := [w64 0x2008, 8, 0], ws := [5], g := 1 }
def coW (w : CoreWait) : State := { core0 with outst := [{ acR with aid := 0xC0 }] }.modCore 0 (fun c => { c with wait := w })
def rqMc : Msg := { rqM with aid := 0xC0 }
def rqMh : Msg := { rqM with aid := 0x105 }
def ownRd9 : OwnRd := { tag := 9 }
def rdSet : State := hqOf 15 (fun x => { x with reads := [(0x80, { tag := 9 })] })
def hrq (mv : Meta) (d : Bool) : HostReq := { hd := Fin.ofNat 128 5, dpa := 0x2000, mv := mv, tag := 9, data := 0x3F8000003F8000003F800000, mask := 0xFF0F, dirty := d }
def hA : HostReq := hrq .a false
def hS : HostReq := hrq .s false
def hI : HostReq := hrq .i false
def hD : HostReq := hrq .i true
def hmN : State := { hmI with extents := [] }
def v05 : BitVec 25 := vecAdd 0 0x105
def txH (rk : MsgKind) (sk : MsgKind) : Txn := { line := 0x80, sla := slH, kind := .client, phase := .main, req := { mq rk with aid := 3 }, way := some 3, snp := some sk, wait := [0x105], mem := some (0xABCDEF0123456789, false) }
def txT (t : Txn) : State := hmS (fun x => { x with dir := [(slH, { line := 0x80, st := .he 0x105, way := 3 })], txns := [t] })
def txHx : Txn := txH .rdx .snpGetI
def txHs : Txn := txH .rds .snpFwdS
def txHc : Txn := txH .rdc .snpCur
def kF : Fin 24 := Fin.ofNat 24 kH
def state10_13 : State := (txS tx0).modCru 0 (fun c => { c with st := .failed })
def rge : RangeEng := { flush := true, bySet := false, lo := 0, hi := 5, cursor := 6, walked := true, why := .command }
def rgd : RangeEng := { rge with why := .drain }
def ccS (f : Cru → Cru) : State := ((core0.modCru 3 (fun c => f { c with st := .running, cst := .enabled })).setReg64 (aCr 3 0x4008) 0x2000).setReg64 (aCr 3 0x4010) 0x3000
def ccD (l : Nat) : State := ccS (fun c => { c with cache := [(l, clnD)] })
def hlo (l : Nat) : Nat := hm cru0 l
def state11_1 : State := ccS (fun c => { c with range := some rge })
def state11_2 : State := ccS (fun c => { c with cst := .draining, range := some rgd })
def state11_3 : State := ccS (fun c => { c with cst := .draining })
def state11_5 : State := ccS (fun c => { c with cst := .invalidating, cache := [(0x80, clnD)] })
def heS (f : Ks → Ks) : State := hmS f
def hlD : HLine := { hl0 with dirty := true }
def state11_6 : State := heS (fun x => { x with hst := .draining, hearth := [(slH, hlD)] })
def state11_7 : State := heS (fun x => { x with hst := .draining, hearth := [(slH, hlD)], evq := (List.range 64).map (fun n => (n, 0, false)) })
def hiS : State := { heS (fun x => { x with hst := .invalidating }) with rst := { cru0.rst with steps := [1] } }
def txM : Txn := { line := 0x80, sla := slH, kind := .client, phase := .main, req := { mq .rdc with aid := 3 }, wait := [0], memPend := true }
def mpS (f : Ks → Ks) : State := hmS (fun x => f { x with rdq := [slH], wrq := [slH, 9], txns := [txM] })
def slB : BitVec 30 := BitVec.ofNat 30 slH
def state11_8 : State := mpS (fun x => { x with wrq := [], hearth := [], evq := [(slH, 0xABC, true)] })
def failP : State := (mpS id).setFld (aMp kH 4) 31 1 1
def scS : State := (mpS (fun x => { x with scrubLeft := 5, txns := [] })).setFld (aMp kH 0x514) 31 1 1 |>.setReg64 (aMp kH 0x508) 0x100000
def scL : State := scS.setReg64 (aMp kH 0x508) 0
def scC : State := scL.setFld (aMp kH 0x510) 24 1 1
def state11_9 : State := { hmI with build := .b1 }
def tstS : State := { mpS (fun x => { x with rawCheck := [(0x100, 0x12345)] }) with extents := [] }.setFld 0x2C000 8 2 2 |>.setReg64 (aMp kH 0x608) 0x4000
def nm0 : NetMsg := { vn := .req, dest := 5, msg := mq .rdc }
def nmE : NetMsg := { nm0 with vn := .esc }
def nmH : NetMsg := { nm0 with dest := 3 }
def spS (f : State → State) : State := f ({ core0 with links := [(linkKey 3 .e, ⟨.active, 6, 0, 0⟩), (linkKey 4 .w, ⟨.active, 6, 0, 0⟩), (linkKey 4 .e, ⟨.active, 6, 0, 0⟩), (linkKey 2 .e, ⟨.active, 6, 0, 0⟩), (linkKey 3 .n, ⟨.training, 0, 0, 0⟩), (linkKey 13 .n, ⟨.retrain, 3, 0, 0⟩)] })
def spH (l : List NetMsg) (f : State → State := id) : State := spS (fun s => f { s with sprue := l.map (fun m => ⟨3, .loc, m⟩) })
def hd0 : Held := ⟨3, .loc, nm0⟩
def hdE : Held := ⟨3, .loc, nmE⟩
def hdH : Held := ⟨3, .loc, nmH⟩
def full : List Held := (List.range 65).map (fun n => ⟨4, .nb .w, { nm0 with msg := { mq .rdc with tag := n } }⟩)
def state11_10 : State := spH [nm0] (fun s => { s with sprue := s.sprue ++ full })
def state11_11 : State := spH [nm0] (fun s => s.setReg (aRtr 3 0x4014) 7)
def fullE : List Held := (List.range 37).map (fun n => ⟨4, .nb .w, { nmE with msg := { mq .rdc with tag := n } }⟩)
def state11_12 : State := spH [nm0] (fun s => { s with sprue := s.sprue ++ fullE })
def wr0 : Wire := { x := 3, p := .w, fx := 2, fp := .loc, m := nm0 }
def nmD : NetMsg := { vn := .dat, dest := 5, msg := mq .dataC }
def wrD : Wire := { wr0 with m := nmD, j := some 2, got := 3 }
def spW (w : Wire) : State := spS (fun s => { s with wires := [w], links := (linkKey 3 .w, ⟨.active, 6, 0, 0⟩) :: s.links })
def gtS (f : Gate → Gate) (e : Hd → Hd) : State := { core0 with gates := [(1, f { up := true, prsnt := true, info := { (cru0.gate 0).info with mld := true, flit := 2 }, tags := [(3, { hd := 0x15, ladle := 2 }), (4, { hd := 0x15, ladle := 2, left := some 0 })], ideBad := [2] })], hds := [(0x15, e { bme := true, order := [7] })], attached := [0x15] }
def state12_1 : State := gtS (fun x => { x with retraining := true }) id
def state12_2 : State := gtS id (fun d => { d with flr := true, order := [6] })
def state12_3 : State := gtS id (fun d => { d with flrSanitizing := true })
def hdF : HdmFields := { ix := 2, base := 0x10000000, size := 0x10000000, skip := 0, ways := 1, gran := 256, lock := true }
def hdB : HdmFields := { hdF with ways := 3 }
def gtL : State := gtS id (fun d => { d with decoders := [(2, { locked := true, committed := true })] })
def state12_4 : State := gtS id (fun d => { d with msixHeld := [9], order := [], msixTab := [(9, 0)] })
def othG : Gate := { prsnt := true }
def slS (st : Nat) (f : Gate → Gate) : State := (List.range 8).foldl (fun s g => if g = 1 then s else s.setFld (aGt g 0x8008) 0 4 4) ({ (gtS (fun x => f { x with up := false }) id) with gates := ((gtS (fun x => f { x with up := false }) id).gates ++ ((List.range 8).filter (· != 1)).map (fun g => (g, othG))), fw := { core0.fw with scanDue := true } }.setFld (aGt 1 0x8008) 0 4 st)
def state12_5 : State := slS 4 (fun x => { x with attnCount := 3 })
def state12_6 : State := slS 5 (fun x => { x with attnCount := 3 })
def state12_7 : State := slS 3 (fun x => { x with training := true })
def state12_8 : State := slS 1 (fun x => { x with wantAttach := true })
def state12_9 : State := slS 3 (fun x => { x with wantAttach := true, up := true })
def state12_10 : State := slS 4 (fun x => { x with dropped := true })
def state12_11 : State := slS 6 (fun x => { x with waitTags := true })
def state12_12 : State := slS 6 (fun x => { x with releasing := true })
def rg1 : Requester := .core 0 0
def state12_13 : State := (slS 1 id).setFld (aSlot 1) 1 1 1
def state12_14 : State := slS 4 (fun x => { x with prsnt := false })
def state12_15 : State := slS 4 (fun x => { x with prsnt := true, prsntCount := 2 })
def state12_16 : State := slS 1 (fun x => { x with attnCount := 3 })
def state12_17 : State := slS 7 (fun x => { x with attnCount := 3 })
def state12b_1 : State := gtS (fun x => { x with retraining := true }) id
def exG : Extent := { first := 8, len := 2, tag := 7, st := .granted, holders := [5, 6] }
def exS : Extent := { exG with holders := [6] }
def exO : Extent := { first := 8, len := 2, tag := 7, offers := [5] }
def exZ : Extent := { first := 0, len := 1, tag := 7, st := .sanitizing }
def dcS (x : Extent) (f : State → State := id) : State := f { core0 with extents := [(0, x)] }
def dcB : State := dcS exG (fun s => { s with hds := [(5, { order := [], respDue := some [0] })] })
def frb : Nat := ((dcS exG).freeRun 1 2).getD 999
def allRun : State := { core0 with extents := [(0, { exG with first := 0, len := 5000 })] }
def rs1 : List (Nat × Nat) := [(frb, 2)]
def manyO : State := dcS exG (fun s => { s with hds := [(5, { order := [], events := [.add (List.range 64)] })] })
def rs8 : List (Nat × Nat) := [(8, 1)]
def q8 : Nat × Nat := (8, 1)
def dcO : State := dcS exO (fun s => { s with hds := [(5, { order := [], events := [.add [0]] })] })
def noEv : List DcEvent := []
def state13_1 := { dcS exG with tb := { core0.tb with running := true } }
def dcZ : State := { dcS exZ with stack := [(2 * 2 ^ 36 + 5, 7), (3 * 2 ^ 36 + 5, 8), (3 * 2 ^ 36 + 0x10000000, 8)] }
def bt0 : State := { State.reset with rst := { State.reset.rst with steps := [1, 2] }, links := State.reset.sprueLinks.map (fun e => (linkKey e.1 e.2, ⟨.active, 6, 0, 0⟩)) }
def bt1 : State := { bt0 with rst := { bt0.rst with afterChip := true } }
def img0 : FwImage := ⟨0x4E424B43, 1, 0, 0, 0, 0, 0, 0, 0, []⟩
def fwS (f : Fw → Fw) : State := { core0 with fw := f { run := 2, slot2 := { img := some img0 } } }
def fwN : State := { fwS id with build := .b1 }
def fwB : State := fwS (fun f => { f with slot1 := { img := some img0 } })
def mlS (k h st g : Nat) : State := ((fwS (fun f => { f with mail := [(h, k)] })).setFld (aHmb h 0x100) 0 8 g).setFld (aGt (g % 8) 0x8008) 0 4 st
def mlW : State := (List.range 24).foldl (fun s k => s.modKs k (fun x => { x with sweep := [0x115] })) (mlS 2 0x15 1 1)
def rgH : Requester := .hd 3
def rc4 : Requester := .core 0 0
def rcH : Requester := .hd 3
def fe0 : FaultEv := { src := 29, unit := 200, param := 5, param2 := 6 }
def fe1 : FaultEv := { src := 13, unit := 200 }
def ph (p : RstPhase) : State := { core0 with rst := { core0.rst with phase := p } }
def state14_2 := { core0 with mouldPoison := [77] }
def ueD : State := mem0.modCru 3 (fun c => { c with cst := .enabled, cache := [(0x80, clD)] })
def hlDy : HLine := { hl0 with dirty := true }
def ueH (x : HLine) : State := hmS (fun k => { k with hearth := [(slH, x)] })
def kFf : Fin 24 := Fin.ofNat 24 kH
def frc : State := core0.setFld (aFt 0x28) 0 10 200
def fq0 : State := (core0.setReg64 (aFt 0x30) 9).setReg64 (aFt 0x38) 5
def fh0 : State := { fq0 with fc := { core0.fc with held := [⟨28, 0, 1, 2⟩, ⟨28, 1, 1, 2⟩] } }
def state14_3 : HeldEv := ⟨28, 0, 1, 2⟩
def state14_4 : List HeldEv := [⟨28, 1, 1, 2⟩]
def mr0 : MarkRec := { time := 7, code := 5, cls := 1, untimed := false, holdover := false, forced := false, unit := 9, rep := 0, p0 := 0, p1 := 0, p2 := 0, p3 := 0 }
def mr9 : MarkRec := { mr0 with time := 9 }
def mr8 : MarkRec := { mr0 with code := 8 }
def mkS (f : MarkLog → MarkLog) : State := { core0 with ml := f { written := 4097, base := 3, ring := [(0, mr0)] } }
def mkF (n : Nat) : State := mkS (fun m => { m with frozen := true, frozenCourses := 4, missed := n })
def rsM : State := { dcZ with code := [(5, 6)], mould := [(7, 8)] }
def chS12 : State := { rsM with fc := { rsM.fc with chip := some 12 } }
def rc12 : ResetCause := .chip 12
def drS : State := { core0 with fc := { core0.fc with chip := some 12 }, outst := [{ aid := 3, home := 2, line := 0x80, store := true, tag := 9 }, { aid := 4, home := 2, line := 0x80, store := true, tag := 9 }] }.modCru 3 (fun c => { c with st := .running }) |>.modCru 4 (fun c => { c with st := .running })
def drD : State := { drS with rst := { drS.rst with phase := .drain 2 12 } }.modCru 3 (fun c => { c with st := .stopping, stopBy := .drain }) |>.modCru 4 (fun c => { c with st := .stopping, stopBy := .drain })
def wlS : State := { core0 with rst := { core0.rst with withheld := true, steps := [] }, gates := [(1, { up := true })] }
def state14_5 := { drD with rst := { drD.rst with shutting := true } }
def bu0 : State := { core0 with rst := { core0.rst with steps := [] } }
def buN (l : List Nat) : State := { dcZ with rst := { core0.rst with steps := l } }
def buL (l : List Nat) : State := { buN l with links := core0.sprueLinks.map (fun e => (linkKey e.1 e.2, ⟨.active, 6, 0, 0⟩)) }
def buK : State := { buN [1] with kss := (List.range 24).map (fun k => (k, { hst := .bypass })) }

/-! ## Hypotheses of the statements, clause by clause -/

theorem witness_StepRunsFront :
  core0.pending = [] := by
  and_intros <;> decide +kernel

theorem witness_PoolMapIsOneToOne :
  core0.poolSize ≤ 1649267441664 ∧ 305419896 < core0.poolSize ∧ 2 ∈ buildKeys core0.build := by
  and_intros <;> decide +kernel

theorem witness_ScalarRegisterOps :
  core0.canRun u0 fA.g { s := [fA.d, fA.a, fA.b] } ∧ resA fA = false ∧ core0.sOf u0 fA.b ≠ 0 := by
  and_intros <;> decide +kernel

theorem witness_DivisionNeverTraps :
  core0.canRun u0 fA0.g { s := [fA0.d, fA0.a, fA0.b] } ∧ resA fA0 = false ∧ core0.sOf u0 fA0.b = 0 ∧
  state1_1.canRun u0 fA.g { s := [fA.d, fA.a, fA.b] } ∧ resA fA = false ∧ state1_1.sOf u0 fA.a = 9223372036854775808 ∧
  state1_1.sOf u0 fA.b = 18446744073709551615 := by
  and_intros <;> decide +kernel

theorem witness_ScalarOneOperandAndImmediateOps :
  core0.canRun u0 fA0.g { s := [fA0.d, fA0.a] } ∧ resA fA0 = false ∧ fA0.b = 0 ∧ cru0.canRun uc fBd.g { s := [fBd.d] } ∧ fBd.a = 0 ∧
  cru0.canRun uc fB.g { s := [fB.d, fB.a] } := by
  and_intros <;> decide +kernel

theorem witness_ScalarComparesAndPredicates :
  core0.canRun u0 fA.g { s := [fA.a, fA.b], p := [fA.d] } ∧ resA fA = false ∧ fA.d.toNat < 16 ∧
  core0.canRun u0 fB.g { s := [fB.a], p := [fB.d] } ∧ fB.d.toNat < 16 ∧ core0.canRun u0 fA.g { p := [fA.d, fA.a, fA.b] } ∧
  fA.a.toNat < 16 ∧ fA.b.toNat < 16 ∧ core0.canRun u0 fA0.g { p := [fA0.d, fA0.a, fA0.b] } ∧ resA fA0 = false ∧ fA0.d.toNat < 16 ∧
  fA0.a.toNat < 16 ∧ fA0.b = 0 ∧ core0.canRun u0 fA0.g { s := [fA0.a], p := [fA0.d] } ∧
  core0.canRun u0 fA0.g { s := [fA0.d], p := [fA0.a] } := by
  and_intros <;> decide +kernel

theorem witness_BranchTargets :
  core0.canRun u0 fBr.g { } ∧ fBr.d = 0 ∧ fBr.a = 0 ∧ core0.canRun u0 fBr.g { s := [fBr.d] } ∧ core0.canRun u0 fBr.g { s := [fBr.a] } ∧
  core0.canRun u0 fBr.g { s := [fBr.a, fBr.d] } := by
  and_intros <;> decide +kernel

theorem witness_ScalarFrameAndGuard :
  (∀ (m : Fin 72), u0 = MUnit.cru m → 0 ≠ (↑m : Nat)) ∧ (∀ (e c : Fin 4), u0 = MUnit.core e c → 1 ≠ coreIx e c) ∧
  BitVec.getLsbD ((core0.mki u0).guard gz) 0 = false ∧ fAz.g = gz ∧ core0.canDispatch u0 gz { s := [fAz.d, fAz.a, fAz.b] } ∧
  resA fAz = false ∧ fBc.g = gz ∧ core0.canDispatch u0 gz { s := [fBc.d, fBc.a] } ∧ fBzz.g = gz ∧
  core0.canDispatch u0 gz { s := [fBzz.a] } ∧ fBzz.d = 0 ∧ fEz.g = gz ∧ core0.canDispatch u0 gz { } ∧ fEz.sc = 0 ∧ fEz.rsv = false ∧
  fEz.a = 0 ∧ BitVec.getLsbD ((cru0.mki uc).guard gz) 0 = false ∧ uc = MUnit.cru 0 ∧ fCz.g = gz ∧
  cru0.canDispatch uc gz { s := [fCz.base, fCz.idx, fCz.d] } ∧ fCz.rsv = 0 ∧ (cru0.cru (↑0 : Nat)).xq.length < 16 ∧
  core0.canDispatch u0 fAr.g { s := [fAr.d, fAr.a, fAr.b] } ∧ resA fAr = true ∧ fD0.sa = 0 ∧ fD0.sb = 0 ∧ fD0.sx = 0 ∧ fD0.tya = 0 ∧
  fD0.tyb = 0 ∧ fD0.rm = 0 ∧ fD0.sat = false ∧ fD0.z = false ∧ fD0.rsv = 0 ∧ fA0.c = 0 ∧ fA0.rm = 0 ∧ fA0.sat = false ∧ fA0.ty = 0 ∧
  fA0.rsv = 0 ∧ fC0.rsv = 0 ∧ fA0.g = fD0.g ∧ fC0.g = fD0.g ∧ core0.canDispatch (MUnit.core 0 0) fD0.g { } := by
  and_intros <;> decide +kernel

theorem witness_CsrAccess :
  core0.canRun u0 (fE 1 0).g { s := [(fE 1 0).a] } ∧ core0.csrReach u0 (fE 1 0) 0 ∧ core0.canRun u0 (fE 1 1).g { s := [(fE 1 1).a] } ∧
  core0.csrReach u0 (fE 1 1) 1 ∧ core0.canRun u0 (fE 1 2).g { s := [(fE 1 2).a] } ∧ core0.csrReach u0 (fE 1 2) 2 ∧
  u0 = MUnit.core (Fin.ofNat 4 0) (Fin.ofNat 4 0) ∧ cru0.canRun uc (fE 1 2).g { s := [(fE 1 2).a] } ∧ cru0.csrReach uc (fE 1 2) 2 ∧
  uc = MUnit.cru (Fin.ofNat 72 0) ∧ core0.canRun u0 (fE 1 3).g { s := [(fE 1 3).a] } ∧ core0.csrReach u0 (fE 1 3) 3 ∧
  core0.canRun u0 (fE 1 4).g { s := [(fE 1 4).a] } ∧ core0.csrReach u0 (fE 1 4) 4 ∧ core0.canRun u0 (fE 1 5).g { s := [(fE 1 5).a] } ∧
  core0.csrReach u0 (fE 1 5) 5 ∧ core0.canRun u0 (fE 1 6).g { s := [(fE 1 6).a] } ∧ core0.csrReach u0 (fE 1 6) 6 ∧
  core0.canRun u0 (fE 1 256).g { s := [(fE 1 256).a] } ∧ core0.csrReach u0 (fE 1 256) 256 ∧
  core0.canRun u0 (fE 1 257).g { s := [(fE 1 257).a] } ∧ core0.csrReach u0 (fE 1 257) 257 ∧
  core0.canRun u0 (fE 1 258).g { s := [(fE 1 258).a] } ∧ core0.csrReach u0 (fE 1 258) 258 ∧
  core0.canRun u0 (fE 1 259).g { s := [(fE 1 259).a] } ∧ core0.csrReach u0 (fE 1 259) 259 ∧
  core0.canRun u0 (fE 1 260).g { s := [(fE 1 260).a] } ∧ core0.csrReach u0 (fE 1 260) 260 ∧
  core0.canRun u0 (fE 1 261).g { s := [(fE 1 261).a] } ∧ core0.csrReach u0 (fE 1 261) 261 ∧
  core0.canRun u0 (fE 1 262).g { s := [(fE 1 262).a] } ∧ core0.csrReach u0 (fE 1 262) 262 ∧
  core0.canRun u0 (fE 1 264).g { s := [(fE 1 264).a] } ∧ core0.csrReach u0 (fE 1 264) 264 ∧ core0.canRun u0 (fE 0 21).g { } ∧
  (fE 0 21).sc = 0 ∧ (fE 0 21).rsv = false ∧ (fE 0 21).a = 0 ∧ (fE 0 21).imm.toNat < 64 ∧ core0.mathDrained u0 = true := by
  and_intros <;> decide +kernel

theorem witness_TrapEntryAndReturn :
  core0.canRun (MUnit.core 0 0) (fE 0 77).g { } ∧ (fE 0 77).sc = 0 ∧ (fE 0 77).rsv = false ∧ (fE 0 77).a = 0 ∧
  (core0.mki (MUnit.core 0 0)).inTrap = false ∧ state2_1.canRun (MUnit.core 0 0) (fE 0 0).g { } ∧ (fE 0 0).sc = 0 ∧ (fE 0 0).rsv = false ∧
  (fE 0 0).a = 0 ∧ (fE 0 0).imm = 0 ∧ (coreI.core (coreIx 0 0)).out = true ∧ (coreI.core (coreIx 0 0)).stopped = false ∧
  (coreI.core (coreIx 0 0)).wait = CoreWait.none ∧ (coreI.mki (MUnit.core 0 0)).ie = true ∧
  coreI.ipend (coreIx 0 0) &&& (coreI.mki (MUnit.core 0 0)).ien ≠ 0 := by
  and_intros <;> decide +kernel

theorem witness_DoubleTrapStopsCore :
  (state2_1.core 0).mki.inTrap = true ∧ state2_1.canRun (MUnit.core 0 0) (fE 0 5).g { } ∧ (fE 0 5).sc = 0 ∧ (fE 0 5).rsv = false ∧
  (fE 0 5).a = 0 ∧ (state2_1.mki (MUnit.core 0 0)).inTrap = true := by
  and_intros <;> decide +kernel

theorem witness_ControlAndFetch :
  cru0.canRun (MUnit.cru 0) (fE 0 77).g { } ∧ (fE 0 77).sc = 0 ∧ (fE 0 77).rsv = false ∧ (fE 0 77).a = 0 ∧
  (cru0.cru (↑0 : Nat)).xq = [] ∧ (fE 0 77).imm.toNat < 2 ^ 16 ∧ (fE 0 0).sc = 0 ∧ (fE 0 0).rsv = false ∧ (fE 0 0).a = 0 ∧
  (fE 0 0).imm = 0 ∧ cru0.canRun (MUnit.cru 0) (fE 0 0).g { } ∧ cru0.canDispatch (MUnit.cru 0) (fE 0 0).g { } ∧
  core0.canDispatch (MUnit.core 0 0) (fE 0 0).g { } ∧ core0.canRun (MUnit.core 0 0) (fE 0 0).g { } ∧ seqB.ready uc = false ∧
  pcBad.ready uc = true ∧ pcBad.fetchTrap uc = some (1, 4100) ∧ (icS 0).ready (MUnit.cru 0) = true ∧
  (icS 0).fetchTrap (MUnit.cru 0) = none ∧ tblFind ((icS 0).cru (↑0 : Nat)).ic (((icS 0).mki (MUnit.cru 0)).pc / 64) = some (0, 0) ∧
  mkiDefined (lineInstr (0, 0).fst ((icS 0).mki (MUnit.cru 0)).pc) = false ∧ (icS xI.data).ready (MUnit.cru 0) = true ∧
  (icS xI.data).fetchTrap (MUnit.cru 0) = none ∧
  tblFind ((icS xI.data).cru (↑0 : Nat)).ic (((icS xI.data).mki (MUnit.cru 0)).pc / 64) = some (xI.data, 0) ∧
  mkiDefined (lineInstr (xI.data, 0).fst ((icS xI.data).mki (MUnit.cru 0)).pc) = true ∧ state2b_1.ready (MUnit.cru 0) = true ∧
  state2b_1.fetchTrap (MUnit.cru 0) = none ∧ tblFind (state2b_1.cru (↑0 : Nat)).ic ((state2b_1.mki (MUnit.cru 0)).pc / 64) = none ∧
  List.length (state2b_1.cru (↑0 : Nat)).ic < 512 ∧ tblFind (state2b_1.cru (↑0 : Nat)).cache ((state2b_1.mki (MUnit.cru 0)).pc / 64) = some xI ∧
  (state2b_1.cru (↑0 : Nat)).cst ≠ CacheSt.invalidating ∧ mkiDefined (lineInstr xI.data (state2b_1.mki (MUnit.cru 0)).pc) = true ∧
  cru0.ready (MUnit.cru 0) = true ∧ cru0.fetchTrap (MUnit.cru 0) = none ∧
  tblFind (cru0.cru (↑0 : Nat)).ic ((cru0.mki (MUnit.cru 0)).pc / 64) = none ∧
  tblFind (cru0.cru (↑0 : Nat)).cache ((cru0.mki (MUnit.cru 0)).pc / 64) = none ∧
  tblFind (cru0.cru (↑0 : Nat)).wb ((cru0.mki (MUnit.cru 0)).pc / 64) = none ∧
  tblFind (cru0.cru (↑0 : Nat)).miss ((cru0.mki (MUnit.cru 0)).pc / 64) = none ∧ List.length (cru0.cru (↑0 : Nat)).miss < 384 ∧
  (cru0.cru (↑0 : Nat)).cst ≠ CacheSt.invalidating ∧ cru0.homeUp ((cru0.mki (MUnit.cru 0)).pc / 64) = some (hm cru0 64) ∧
  cru0.hasCredit (↑0 : Nat) (hm cru0 64) = true ∧ state2b_2.ready (MUnit.core 0 0) = true ∧ state2b_2.fetchTrap (MUnit.core 0 0) = none ∧
  state2b_2.inCodeWindow (state2b_2.mki (MUnit.core 0 0)).pc = false ∧
  state2b_2.homeUp ((state2b_2.mki (MUnit.core 0 0)).pc / 64) = some (hm cru0 64) ∧
  state2b_2.posted (aidCore (coreIx 0 0)) ((state2b_2.mki (MUnit.core 0 0)).pc / 64) = false ∧
  state2b_2.hasCredit (aidCore (coreIx 0 0)) (hm cru0 64) = true ∧ codeZ.ready (MUnit.core 0 0) = true ∧
  codeZ.fetchTrap (MUnit.core 0 0) = none ∧ codeZ.inCodeWindow (codeZ.mki (MUnit.core 0 0)).pc = true ∧
  mkiDefined (BitVec.ofNat 64 (codeZ.codeNat (↑0 : Nat) ((codeZ.mki (MUnit.core 0 0)).pc - codeZ.codeWindow) 8)) = false ∧
  codeI.ready (MUnit.core 0 0) = true ∧ codeI.fetchTrap (MUnit.core 0 0) = none ∧
  codeI.inCodeWindow (codeI.mki (MUnit.core 0 0)).pc = true ∧
  mkiDefined (BitVec.ofNat 64 (codeI.codeNat (↑0 : Nat) ((codeI.mki (MUnit.core 0 0)).pc - codeI.codeWindow) 8)) = true := by
  and_intros <;> decide +kernel

theorem witness_SyncCountersAndTokens :
  cru0.canDispatch (MUnit.cru 0) fS.g { s := [fS.a] } ∧ fS.rsv = false ∧
  core0.canDispatch (MUnit.core 0 0) state2b_3.g { s := [state2b_3.a] } ∧ state2b_3.rsv = false ∧ state2b_3.imm = 0 ∧
  cru0.canRun (MUnit.cru 0) fS.g { s := [fS.a] } ∧
  tblGet (cru0.cru (↑0 : Nat)).sc 0 fS.sc.toNat + (BitVec.toNat (cru0.sOf (MUnit.cru 0) fS.a) % 2 ^ 32 + fS.imm.toNat) % 2 ^ 32 < 2 ^ 32 ∧
  (cru0.cru (↑0 : Nat)).mq0.length < 16 ∧ (cru0.cru (↑0 : Nat)).mq1.length < 16 ∧ (cru0.cru (↑0 : Nat)).vq.length < 16 ∧
  (cru0.cru (↑0 : Nat)).xq.length < 16 ∧
  tblGet (cru0.cru (↑0 : Nat)).sc 0 fS.sc.toNat < (BitVec.toNat (cru0.sOf (MUnit.cru 0) fS.a) % 2 ^ 32 + fS.imm.toNat) % 2 ^ 32 ∧
  (cru0.cru (↑0 : Nat)).signals fS.sc.toNat = false ∧ state2b_4.canRun (MUnit.cru 0) fS.g { s := [fS.a] } ∧
  (BitVec.toNat (state2b_4.sOf (MUnit.cru 0) fS.a) % 2 ^ 32 + fS.imm.toNat) % 2 ^ 32 ≤ tblGet (state2b_4.cru (↑0 : Nat)).sc 0 fS.sc.toNat ∧
  state2b_5.canRun (MUnit.cru 0) fS.g { s := [fS.a] } ∧
  2 ^ 32 ≤ tblGet (state2b_5.cru (↑0 : Nat)).sc 0 fS.sc.toNat + (BitVec.toNat (state2b_5.sOf (MUnit.cru 0) fS.a) % 2 ^ 32 + fS.imm.toNat) % 2 ^ 32 ∧
  state2b_6.canRun (MUnit.cru 0) fS.g { s := [fS.a] } ∧ 16 ≤ (1, (state2b_6.cru (↑0 : Nat)).mq0).snd.length ∧
  state2b_7.canRun (MUnit.cru 0) fS.g { s := [fS.a] } ∧ (state2b_7.cru (↑0 : Nat)).signals fS.sc.toNat = true ∧
  cru0.canRun (MUnit.cru 0) state2b_3.g { s := [state2b_3.a] } ∧ (state2b_8.cru (↑0 : Nat)).st = CruSt.running ∧
  (state2b_8.cru (↑0 : Nat)).trap = none ∧ tblGet (state2b_8.cru (↑0 : Nat)).sc 0 5 + 7 < 2 ^ 32 ∧
  (state2b_8.cru (↑0 : Nat)).mq0 = [QEntry.sig 5 7 4096 2] ∧ (state2b_8.cru (↑0 : Nat)).xq = [] ∧
  (state2b_8.cru (↑0 : Nat)).mq1 = [QEntry.sig 5 7 4096 2] ∧ (state2b_8.cru (↑0 : Nat)).vq = [QEntry.sig 5 7 4096 2] ∧
  (state2b_8.cru (↑0 : Nat)).getQ QueueId.seq = [] ∧ (state2b_9.cru (↑0 : Nat)).st = CruSt.running ∧ (state2b_9.cru (↑0 : Nat)).trap = none ∧
  tblGet (state2b_9.cru (↑0 : Nat)).sc 0 5 + 7 < 2 ^ 32 ∧ (state2b_9.cru (↑0 : Nat)).xq = [QEntry.sig 5 7 4096 2] ∧
  state2b_9.xqAccepted (↑0 : Nat) = true ∧ (state2b_10.cru (↑0 : Nat)).st = CruSt.running ∧ (state2b_10.cru (↑0 : Nat)).trap = none ∧
  tblGet (state2b_10.cru (↑0 : Nat)).sc 0 5 + 7 < 2 ^ 32 ∧ (state2b_10.cru (↑0 : Nat)).xq = [QEntry.sig 5 7 4096 2] ∧
  state2b_10.xqAccepted (↑0 : Nat) = false ∧ (state2b_11.cru (↑0 : Nat)).st = CruSt.running ∧ (state2b_11.cru (↑0 : Nat)).trap = none ∧
  (state2b_11.cru (↑0 : Nat)).vq = [QEntry.sig 5 7 4096 2] ∧ 2 ^ 32 ≤ tblGet (state2b_11.cru (↑0 : Nat)).sc 0 5 + 7 ∧
  (state2b_12.cru (↑0 : Nat)).st = CruSt.running ∧ (state2b_12.cru (↑0 : Nat)).trap = none ∧ 7 ≤ tblGet (state2b_12.cru (↑0 : Nat)).sc 0 5 ∧
  (state2b_12.cru (↑0 : Nat)).xq = [QEntry.wait 5 7] ∧ (state2b_12.cru (↑0 : Nat)).seqw = SeqWait.scwait 5 7 ∧
  (state2b_13.cru (↑0 : Nat)).st = CruSt.running ∧ (state2b_13.cru (↑0 : Nat)).trap = none ∧ 7 ≤ tblGet (state2b_13.cru (↑0 : Nat)).sc 0 5 ∧
  (state2b_13.cru (↑0 : Nat)).mq0 = [QEntry.wait 5 7] ∧ (state2b_13.cru (↑0 : Nat)).xq = [] ∧ (state2b_13.cru (↑0 : Nat)).mq1 = [QEntry.wait 5 7] ∧
  (state2b_13.cru (↑0 : Nat)).vq = [QEntry.wait 5 7] ∧ (state2b_14.cru (↑0 : Nat)).st = CruSt.running ∧ (state2b_14.cru (↑0 : Nat)).trap = none ∧
  ¬7 ≤ tblGet (state2b_14.cru (↑0 : Nat)).sc 0 5 ∧ (state2b_14.cru (↑0 : Nat)).seqw = SeqWait.scwait 5 7 ∧
  (state2b_14.cru (↑0 : Nat)).getQ QueueId.mq0 = [QEntry.wait 5 7] := by
  and_intros <;> decide +kernel

theorem witness_BarriersRetire :
  (state2b_15.cru (↑0 : Nat)).seqw = SeqWait.mortar ∧ state2b_15.barrierDone (↑0 : Nat) = true ∧
  (state2b_16.core (coreIx 0 0)).wait = CoreWait.mortar ∧ state2b_16.allDone (aidCore (coreIx 0 0)) = true ∧
  (∀ (x : Nat × Cru), x ∈ state2b_16.crus → x.snd.commanded false (aidCore (coreIx 0 0)) = false) ∧
  (cru0.barrierDone (↑0 : Nat) = false ∨ (cru0.cru (↑0 : Nat)).seqw = SeqWait.none) ∧
  ((core0.core (coreIx 0 0)).wait ≠ CoreWait.mortar ∨ core0.coreBarrier (coreIx 0 0) = false) ∧
  (enP.cru (↑0 : Nat)).seqw = SeqWait.ending 3 ∧ enP.barrierDone (↑0 : Nat) = true ∧ (enP.cru (↑0 : Nat)).charge = some (3, 1) ∧
  enP.charge 3 1 = some enS ∧ (state2b_17.cru (↑0 : Nat)).seqw = SeqWait.ending 3 ∧ state2b_17.barrierDone (↑0 : Nat) = true ∧
  (state2b_17.cru (↑0 : Nat)).charge = none := by
  and_intros <;> decide +kernel

theorem witness_VectorArithmetic :
  vec0.vqReady 0 (vG 3 1 2 0 1 0).g { } ∧ (vG 3 1 2 0 1 0).ty = 0 ∧ (vG 3 1 2 0 1 0).sat = false ∧ (vG 3 1 2 0 1 0).rsv = 0 ∧
  (vG 3 1 2 0 1 0).rm.toNat < 2 ∧ (vG 3 1 2 0 1 0).c = 0 ∧ vec0.vqReady 0 (vG 3 1 0 0 0 0).g { } ∧ (vG 3 1 0 0 0 0).ty = 0 ∧
  (vG 3 1 0 0 0 0).sat = false ∧ (vG 3 1 0 0 0 0).rsv = 0 ∧ (vG 3 1 0 0 0 0).rm = 0 ∧ (vG 3 1 0 0 0 0).c = 0 ∧ (vG 3 1 0 0 0 0).b = 0 ∧
  vec0.vqReady 0 (vG 3 1 2 0 0 8).g { } ∧ ((vG 3 1 2 0 0 8).ty = 8 ∨ (vG 3 1 2 0 0 8).ty = 9 ∨ (vG 3 1 2 0 0 8).ty = 10) ∧
  (vG 3 1 2 0 0 8).rm = 0 ∧ (vG 3 1 2 0 0 8).sat = false ∧ (vG 3 1 2 0 0 8).c = 0 ∧ (vG 3 1 2 0 0 8).rsv = 0 ∧ (vG 3 1 2 0 0 8).ty ≠ 10 := by
  and_intros <;> decide +kernel

theorem witness_GuardedLanesKeepTheirValue :
  vec0.vqReady 0 (vG 3 1 2 0 0 0).g { } ∧ (vG 3 1 2 0 0 0).ty = 0 ∧ (vG 3 1 2 0 0 0).sat = false ∧ (vG 3 1 2 0 0 0).rsv = 0 ∧
  (vG 3 1 2 0 0 0).rm.toNat < 2 ∧ (vG 3 1 2 0 0 0).c = 0 ∧ 0#6 ≠ (vG 3 1 2 0 0 0).d ∧ vec0.vqReady 0 (vG 3 1 2 0 0 8).g { } ∧
  ((vG 3 1 2 0 0 8).ty = 8 ∧ 8 = 8 ∨ (vG 3 1 2 0 0 8).ty = 9 ∧ 8 = 16 ∨ (vG 3 1 2 0 0 8).ty = 10 ∧ 8 = 32) ∧ (vG 3 1 2 0 0 8).rm = 0 ∧
  (vG 3 1 2 0 0 8).sat = false ∧ (vG 3 1 2 0 0 8).c = 0 ∧ (vG 3 1 2 0 0 8).rsv = 0 ∧ 0#6 ≠ (vG 3 1 2 0 0 8).d := by
  and_intros <;> decide +kernel

theorem witness_VectorCompares :
  vec0.vqReady 0 (vG 3 1 2 0 0 0).g { p := [(vG 3 1 2 0 0 0).d] } ∧ ((vG 3 1 2 0 0 0).ty = 0 ∨ (vG 3 1 2 0 0 0).ty = 10) ∧
  (vG 3 1 2 0 0 0).rm = 0 ∧ (vG 3 1 2 0 0 0).sat = false ∧ (vG 3 1 2 0 0 0).c = 0 ∧ (vG 3 1 2 0 0 0).rsv = 0 ∧
  (vG 3 1 2 0 0 0).d.toNat < 16 ∧ 0#6 ≠ (vG 3 1 2 0 0 0).d := by
  and_intros <;> decide +kernel

theorem witness_VectorMovesAndReductions :
  (vA 3 1 2 1 0 0).rm = 0 ∧ (vA 3 1 2 1 0 0).sat = false ∧ (vA 3 1 2 1 0 0).rsv = 0 ∧
  vec0.vqReady 0 (vA 3 1 2 1 0 0).g { p := [(vA 3 1 2 1 0 0).c] } ∧ (vA 3 1 2 1 0 0).ty = 0 ∧ (vA 3 1 2 1 0 0).c.toNat < 16 ∧
  (vA 3 1 0 0 0 8).rm = 0 ∧ (vA 3 1 0 0 0 8).sat = false ∧ (vA 3 1 0 0 0 8).rsv = 0 ∧
  vec0.vqReady 0 (vA 3 1 0 0 0 8).g { s := [(vA 3 1 0 0 0 8).a] } ∧
  ((vA 3 1 0 0 0 8).ty = 8 ∨ (vA 3 1 0 0 0 8).ty = 9 ∨ (vA 3 1 0 0 0 8).ty = 10) ∧ (vA 3 1 0 0 0 8).b = 0 ∧ (vA 3 1 0 0 0 8).c = 0 ∧
  (vA 3 1 0 0 0 10).rm = 0 ∧ (vA 3 1 0 0 0 10).sat = false ∧ (vA 3 1 0 0 0 10).rsv = 0 ∧
  vec0.vqReady 0 (vA 3 1 0 0 0 10).g { s := [(vA 3 1 0 0 0 10).a, (vA 3 1 0 0 0 10).b] } ∧ (vA 3 1 0 0 0 10).ty = 10 ∧
  (vA 3 1 0 0 0 10).c = 0 ∧
  BitVec.getLsbD (vec0.maskOf 0 (vA 3 1 0 0 0 10).g) (bitsOf (vec0.sOf (MUnit.cru 0) (vA 3 1 0 0 0 10).b) 0 6) = true ∧
  vec0.vqReady 0 (vA 3 1 0 0 0 10).g { s := [(vA 3 1 0 0 0 10).b, (vA 3 1 0 0 0 10).d] } ∧ (vA 5 1 0 0 0 0).rm = 0 ∧
  (vA 5 1 0 0 0 0).sat = false ∧ (vA 5 1 0 0 0 0).rsv = 0 ∧ vec0.vqReady 0 (vA 5 1 0 0 0 0).g { s := [(vA 5 1 0 0 0 0).d] } ∧
  (vA 5 1 0 0 0 0).ty = 0 ∧ (vA 5 1 0 0 0 0).b = 0 ∧ (vA 5 1 0 0 0 0).c = 0 ∧ (vG 0 1 0 0 0 0).rm = 0 ∧ (vG 0 1 0 0 0 0).sat = false ∧
  (vG 0 1 0 0 0 0).rsv = 0 ∧ vec0.vqReady 0 (vG 0 1 0 0 0 0).g { s := [(vG 0 1 0 0 0 0).a] } ∧ (vG 0 1 0 0 0 0).ty = 0 ∧
  (vG 0 1 0 0 0 0).b = 0 ∧ (vG 0 1 0 0 0 0).c = 0 ∧ (vG 0 1 0 0 0 0).d = 0 ∧ (vG1 3 3 1 0 10).rm = 0 ∧ (vG1 3 3 1 0 10).sat = false ∧
  (vG1 3 3 1 0 10).rsv = 0 ∧ vec0.vqReady 0 (vG1 3 3 1 0 10).g { s := [(vG1 3 3 1 0 10).a, (vG1 3 3 1 0 10).b] } ∧
  (vG1 3 3 1 0 10).ty = 10 ∧ (vG1 3 3 1 0 10).c = 0 ∧
  BitVec.getLsbD (vec0.maskOf 0 (vG1 3 3 1 0 10).g) (bitsOf (vec0.sOf (MUnit.cru 0) (vG1 3 3 1 0 10).b) 0 6) = false ∧
  vec0.vqReady 0 (vG1 3 3 1 0 10).g { s := [(vG1 3 3 1 0 10).b, (vG1 3 3 1 0 10).d] } := by
  and_intros <;> decide +kernel

theorem witness_VectorConversionsAndFunctions :
  vec0.vqReady 0 (vA 3 1 0 0 1 0).g { s := [(vA 3 1 0 0 1 0).c] } ∧ (vA 3 1 0 0 1 0).rsv = 0 ∧ (vA 3 1 0 0 1 0).b = 0 ∧
  (vA 3 1 0 0 1 0).c = 0 ∧ (vA 3 1 0 0 1 0).rm.toNat < 2 ∧ (vA 3 1 0 0 1 0).sat = false ∧ (vA 3 1 0 0 1 0).ty = 0 ∧
  vec0.vqReady 0 (vA 3 1 0 0 1 10).g { s := [(vA 3 1 0 0 1 10).c] } ∧ (vA 3 1 0 0 1 10).rsv = 0 ∧ (vA 3 1 0 0 1 10).b = 0 ∧
  (vA 3 1 0 0 1 10).c = 0 ∧ (vA 3 1 0 0 1 10).rm.toNat < 2 ∧ (vA 3 1 0 0 1 10).sat = false ∧ (vA 3 1 0 0 1 10).ty = 10 ∧
  vec0.vqReady 0 (vA 3 1 0 3 0 0).g { s := [(vA 3 1 0 3 0 0).c] } ∧ (vA 3 1 0 3 0 0).rsv = 0 ∧ (vA 3 1 0 3 0 0).b = 0 ∧
  (vA 3 1 0 3 0 0).rm = 0 ∧ (vA 3 1 0 3 0 0).sat = false ∧ (vA 3 1 0 3 0 0).ty = 0 ∧
  vec0.vqReady 0 (vG 3 1 0 3 2 4).g { s := [(vG 3 1 0 3 2 4).c] } ∧ (vG 3 1 0 3 2 4).rsv = 0 ∧ 1 ≤ (vG 3 1 0 3 2 4).ty.toNat ∧
  (vG 3 1 0 3 2 4).ty.toNat ≤ 8 ∧ (vG 3 1 0 3 2 4).b = 0 ∧ (vG 3 1 0 3 2 4).rm ≠ 3 ∧
  vec0.vqReady 0 (vA 3 1 2 3 0 19 true).g { s := [(vA 3 1 2 3 0 19 true).c] } ∧ (vA 3 1 2 3 0 19 true).rsv = 0 ∧
  19 ≤ (vA 3 1 2 3 0 19 true).ty.toNat ∧ (vA 3 1 2 3 0 19 true).ty.toNat ≤ 23 ∧ (vA 3 1 2 3 0 19 true).g.pe = false ∧
  (vA 3 1 2 3 0 19 true).sat = true ∧ (vA 3 1 2 3 0 19 true).rm ≠ 3 ∧ (vA 3 1 2 3 0 19 true).rm.toNat < 2 ∧
  (vA 3 1 2 3 0 19 true).b ≠ (vA 3 1 2 3 0 19 true).d ∧ vec0.vqReady 0 (vA 3 1 2 3 1 20).g { s := [(vA 3 1 2 3 1 20).c] } ∧
  (vA 3 1 2 3 1 20).rsv = 0 ∧ 19 ≤ (vA 3 1 2 3 1 20).ty.toNat ∧ (vA 3 1 2 3 1 20).ty.toNat ≤ 23 ∧ (vA 3 1 2 3 1 20).g.pe = false ∧
  (vA 3 1 2 3 1 20).sat = false ∧ (vA 3 1 2 3 1 20).rm.toNat < 2 ∧ vec0.vqReady 0 (vG 3 1 0 0 0 0).g { } ∧ (vG 3 1 0 0 0 0).ty = 0 ∧
  (vG 3 1 0 0 0 0).rm = 0 ∧ (vG 3 1 0 0 0 0).sat = false ∧ (vG 3 1 0 0 0 0).b = 0 ∧ (vG 3 1 0 0 0 0).c = 0 ∧ (vG 3 1 0 0 0 0).rsv = 0 := by
  and_intros <;> decide +kernel

theorem witness_VectorMouldAccess :
  vec0.vqReady 0 (vC 1 2 0 0).g { s := [(vC 1 2 0 0).base, (vC 1 2 0 0).idx] } ∧ (vC 1 2 0 0).rsv = 0 ∧
  ((fun len reads => vec0.maskOf 0 (vC 1 2 0 0).g = 0 ∨ effAddr (vec0.sOf (MUnit.cru 0) (vC 1 2 0 0).base) (vec0.sOf (MUnit.cru 0) (vC 1 2 0 0).idx) (vC 1 2 0 0).sh (vC 1 2 0 0).off + len ≤ 6291456 ∧ effAddr (vec0.sOf (MUnit.cru 0) (vC 1 2 0 0).base) (vec0.sOf (MUnit.cru 0) (vC 1 2 0 0).idx) (vC 1 2 0 0).sh (vC 1 2 0 0).off % 64 = 0 ∧ (reads = true → vec0.mpoRows (↑0 : Nat) (effAddr (vec0.sOf (MUnit.cru 0) (vC 1 2 0 0).base) (vec0.sOf (MUnit.cru 0) (vC 1 2 0 0).idx) (vC 1 2 0 0).sh (vC 1 2 0 0).off) 0 1 len = none)) 256 true) ∧
  ((fun len reads => vec0.maskOf 0 (vC 1 2 0 0).g = 0 ∨ effAddr (vec0.sOf (MUnit.cru 0) (vC 1 2 0 0).base) (vec0.sOf (MUnit.cru 0) (vC 1 2 0 0).idx) (vC 1 2 0 0).sh (vC 1 2 0 0).off + len ≤ 6291456 ∧ effAddr (vec0.sOf (MUnit.cru 0) (vC 1 2 0 0).base) (vec0.sOf (MUnit.cru 0) (vC 1 2 0 0).idx) (vC 1 2 0 0).sh (vC 1 2 0 0).off % 64 = 0 ∧ (reads = true → vec0.mpoRows (↑0 : Nat) (effAddr (vec0.sOf (MUnit.cru 0) (vC 1 2 0 0).base) (vec0.sOf (MUnit.cru 0) (vC 1 2 0 0).idx) (vC 1 2 0 0).sh (vC 1 2 0 0).off) 0 1 len = none)) 64 true) ∧
  ((fun len reads => vec0.maskOf 0 (vC 1 2 0 0).g = 0 ∨ effAddr (vec0.sOf (MUnit.cru 0) (vC 1 2 0 0).base) (vec0.sOf (MUnit.cru 0) (vC 1 2 0 0).idx) (vC 1 2 0 0).sh (vC 1 2 0 0).off + len ≤ 6291456 ∧ effAddr (vec0.sOf (MUnit.cru 0) (vC 1 2 0 0).base) (vec0.sOf (MUnit.cru 0) (vC 1 2 0 0).idx) (vC 1 2 0 0).sh (vC 1 2 0 0).off % 64 = 0 ∧ (reads = true → vec0.mpoRows (↑0 : Nat) (effAddr (vec0.sOf (MUnit.cru 0) (vC 1 2 0 0).base) (vec0.sOf (MUnit.cru 0) (vC 1 2 0 0).idx) (vC 1 2 0 0).sh (vC 1 2 0 0).off) 0 1 len = none)) 256 false) ∧
  Memory.wf vec0.mould = true ∧ BitVec.getLsbD (vec0.maskOf 0 (vC 1 2 0 0).g) (63 / 4) = true ∧
  (∀ (k : Nat), k < 256 → BitVec.getLsbD (vec0.maskOf 0 (vC 1 2 0 0).g) (k / 4) = true → 0 ≠ (↑0 : Nat) * 2 ^ 23 + effAddr (vec0.sOf (MUnit.cru 0) (vC 1 2 0 0).base) (vec0.sOf (MUnit.cru 0) (vC 1 2 0 0).idx) (vC 1 2 0 0).sh (vC 1 2 0 0).off + k) ∧
  vec3.vqReady 0 (vC 1 2 0 0).g { s := [(vC 1 2 0 0).base, (vC 1 2 0 0).idx] } ∧ vec3.maskOf 0 (vC 1 2 0 0).g ≠ 0 ∧
  6291456 < effAddr (vec3.sOf (MUnit.cru 0) (vC 1 2 0 0).base) (vec3.sOf (MUnit.cru 0) (vC 1 2 0 0).idx) (vC 1 2 0 0).sh (vC 1 2 0 0).off + 256 ∧
  6291456 < effAddr (vec3.sOf (MUnit.cru 0) (vC 1 2 0 0).base) (vec3.sOf (MUnit.cru 0) (vC 1 2 0 0).idx) (vC 1 2 0 0).sh (vC 1 2 0 0).off + 64 ∧
  vec0.vqReady 0 (vC 1 2 0 8).g { s := [(vC 1 2 0 8).base, (vC 1 2 0 8).idx] } ∧ (vC 1 2 0 8).rsv = 0 ∧
  vec0.maskOf 0 (vC 1 2 0 8).g ≠ 0 ∧
  effAddr (vec0.sOf (MUnit.cru 0) (vC 1 2 0 8).base) (vec0.sOf (MUnit.cru 0) (vC 1 2 0 8).idx) (vC 1 2 0 8).sh (vC 1 2 0 8).off + 256 ≤ 6291456 ∧
  effAddr (vec0.sOf (MUnit.cru 0) (vC 1 2 0 8).base) (vec0.sOf (MUnit.cru 0) (vC 1 2 0 8).idx) (vC 1 2 0 8).sh (vC 1 2 0 8).off % 64 ≠ 0 ∧
  effAddr (vec0.sOf (MUnit.cru 0) (vC 1 2 0 8).base) (vec0.sOf (MUnit.cru 0) (vC 1 2 0 8).idx) (vC 1 2 0 8).sh (vC 1 2 0 8).off + 64 ≤ 6291456 ∧
  vec4.vqReady 0 (vC 1 2 0 0).g { s := [(vC 1 2 0 0).base, (vC 1 2 0 0).idx] } ∧ vec4.maskOf 0 (vC 1 2 0 0).g ≠ 0 ∧
  effAddr (vec4.sOf (MUnit.cru 0) (vC 1 2 0 0).base) (vec4.sOf (MUnit.cru 0) (vC 1 2 0 0).idx) (vC 1 2 0 0).sh (vC 1 2 0 0).off + 256 ≤ 6291456 ∧
  effAddr (vec4.sOf (MUnit.cru 0) (vC 1 2 0 0).base) (vec4.sOf (MUnit.cru 0) (vC 1 2 0 0).idx) (vC 1 2 0 0).sh (vC 1 2 0 0).off % 64 = 0 ∧
  vec4.mpoRows (↑0 : Nat) (effAddr (vec4.sOf (MUnit.cru 0) (vC 1 2 0 0).base) (vec4.sOf (MUnit.cru 0) (vC 1 2 0 0).idx) (vC 1 2 0 0).sh (vC 1 2 0 0).off) 0 1 256 = some (tMouldPoison, 8200) ∧
  effAddr (vec4.sOf (MUnit.cru 0) (vC 1 2 0 0).base) (vec4.sOf (MUnit.cru 0) (vC 1 2 0 0).idx) (vC 1 2 0 0).sh (vC 1 2 0 0).off + 64 ≤ 6291456 ∧
  vec4.mpoRows (↑0 : Nat) (effAddr (vec4.sOf (MUnit.cru 0) (vC 1 2 0 0).base) (vec4.sOf (MUnit.cru 0) (vC 1 2 0 0).idx) (vC 1 2 0 0).sh (vC 1 2 0 0).off) 0 1 64 = some (tMouldPoison, 8200) := by
  and_intros <;> decide +kernel

theorem witness_TileRegisterOps :
  (fD 1 0 0 0 0).tya = 0 ∧ (fD 1 0 0 0 0).tyb = 0 ∧ (fD 1 0 0 0 0).sx = 0 ∧ (fD 1 0 0 0 0).rm = 0 ∧ (fD 1 0 0 0 0).sat = false ∧
  (fD 1 0 0 0 0).z = false ∧ (fD 1 0 0 0 0).rsv = 0 ∧ tile0.mqReady 0 (fD 1 0 0 0 0) { } ∧ (fD 1 0 0 0 0).sa = 0 ∧
  (fD 1 0 0 0 0).sb = 0 ∧ tile0.mqReady 0 (fD 1 0 0 0 0) { s := [(fD 1 0 0 0 0).sa, (fD 1 0 0 0 0).sb] } ∧ (fD 1 2 0 0 0).tyb = 0 ∧
  (fD 1 2 0 0 0).sb = 0 ∧ (fD 1 2 0 0 0).z = false ∧ (fD 1 2 0 0 0).rsv = 0 ∧
  tile0.mqReady 0 (fD 1 2 0 0 0) { s := [(fD 1 2 0 0 0).sa, (fD 1 2 0 0 0).sx] } ∧ (fD 1 2 0 0 0).tya = 0 ∧ (fD 1 2 0 0 0).rm = 0 ∧
  (fD 1 2 0 0 0).sat = false ∧ BitVec.toNat (tile0.sOf (MUnit.cru 0) (fD 1 2 0 0 0).sa) % 64 = 0 ∧
  bitsOf (tile0.sOf (MUnit.cru 0) (fD 1 2 0 0 0).sx) 0 23 % 64 = 0 ∧
  ((BitVec.toNat (tile0.sOf (MUnit.cru 0) (fD 1 2 0 0 0).sa) + 63 * if bitsOf (tile0.sOf (MUnit.cru 0) (fD 1 2 0 0 0).sx) 0 23 = 0 then 256 else bitsOf (tile0.sOf (MUnit.cru 0) (fD 1 2 0 0 0).sx) 0 23) + 256 ≤ 6291456) ∧
  tile0.mpoRows (↑0 : Nat) (BitVec.toNat (tile0.sOf (MUnit.cru 0) (fD 1 2 0 0 0).sa)) (if bitsOf (tile0.sOf (MUnit.cru 0) (fD 1 2 0 0 0).sx) 0 23 = 0 then 256 else bitsOf (tile0.sOf (MUnit.cru 0) (fD 1 2 0 0 0).sx) 0 23) 64 256 = none ∧
  tile0.mqReady 0 (fD 1 2 0 0 0) { s := [(fD 1 2 0 0 0).sa] } ∧ (fD 1 2 0 0 0).sx = 0 ∧
  ((fD 1 2 0 0 0).tya = 0 ∨ (fD 1 2 0 0 0).tya = 10) ∧ (fD 1 2 0 0 0).rm.toNat < 2 ∧
  BitVec.toNat (tile0.sOf (MUnit.cru 0) (fD 1 2 0 0 0).sa) + 256 ≤ 6291456 ∧
  tile0.mpoRows (↑0 : Nat) (BitVec.toNat (tile0.sOf (MUnit.cru 0) (fD 1 2 0 0 0).sa)) 0 1 256 = none ∧
  (til2 6291424 []).mqReady 0 (fD 1 2 0 0 0) { s := [(fD 1 2 0 0 0).sa, (fD 1 2 0 0 0).sx] } ∧
  (¬(BitVec.toNat ((til2 6291424 []).sOf (MUnit.cru 0) (fD 1 2 0 0 0).sa) + (64 - 1) * if bitsOf ((til2 6291424 []).sOf (MUnit.cru 0) (fD 1 2 0 0 0).sx) 0 23 = 0 then 256 else bitsOf ((til2 6291424 []).sOf (MUnit.cru 0) (fD 1 2 0 0 0).sx) 0 23) + 256 ≤ 6291456) ∧
  (til2 6291424 []).mqReady 0 (fD 1 2 0 0 0) { s := [(fD 1 2 0 0 0).sa] } ∧
  ¬BitVec.toNat ((til2 6291424 []).sOf (MUnit.cru 0) (fD 1 2 0 0 0).sa) + (1 - 1) * 0 + 256 ≤ 6291456 ∧
  (til2 8200 []).mqReady 0 (fD 1 2 0 0 0) { s := [(fD 1 2 0 0 0).sa, (fD 1 2 0 0 0).sx] } ∧
  ((BitVec.toNat ((til2 8200 []).sOf (MUnit.cru 0) (fD 1 2 0 0 0).sa) + (64 - 1) * if bitsOf ((til2 8200 []).sOf (MUnit.cru 0) (fD 1 2 0 0 0).sx) 0 23 = 0 then 256 else bitsOf ((til2 8200 []).sOf (MUnit.cru 0) (fD 1 2 0 0 0).sx) 0 23) + 256 ≤ 6291456) ∧
  (¬(BitVec.toNat ((til2 8200 []).sOf (MUnit.cru 0) (fD 1 2 0 0 0).sa) % 64 = 0 ∧ bitsOf ((til2 8200 []).sOf (MUnit.cru 0) (fD 1 2 0 0 0).sx) 0 23 % 64 = 0)) ∧
  (til2 8200 []).mqReady 0 (fD 1 2 0 0 0) { s := [(fD 1 2 0 0 0).sa] } ∧
  BitVec.toNat ((til2 8200 []).sOf (MUnit.cru 0) (fD 1 2 0 0 0).sa) + (1 - 1) * 0 + 256 ≤ 6291456 ∧
  (til2 8192 [1026]).mqReady 0 (fD 1 2 0 0 0) { s := [(fD 1 2 0 0 0).sa, (fD 1 2 0 0 0).sx] } ∧
  ((BitVec.toNat ((til2 8192 [1026]).sOf (MUnit.cru 0) (fD 1 2 0 0 0).sa) + (64 - 1) * if bitsOf ((til2 8192 [1026]).sOf (MUnit.cru 0) (fD 1 2 0 0 0).sx) 0 23 = 0 then 256 else bitsOf ((til2 8192 [1026]).sOf (MUnit.cru 0) (fD 1 2 0 0 0).sx) 0 23) + 256 ≤ 6291456) ∧
  (BitVec.toNat ((til2 8192 [1026]).sOf (MUnit.cru 0) (fD 1 2 0 0 0).sa) % 64 = 0 ∧ bitsOf ((til2 8192 [1026]).sOf (MUnit.cru 0) (fD 1 2 0 0 0).sx) 0 23 % 64 = 0) ∧
  (til2 8192 [1026]).mpoRows (↑0 : Nat) (BitVec.toNat ((til2 8192 [1026]).sOf (MUnit.cru 0) (fD 1 2 0 0 0).sa)) (if bitsOf ((til2 8192 [1026]).sOf (MUnit.cru 0) (fD 1 2 0 0 0).sx) 0 23 = 0 then 256 else bitsOf ((til2 8192 [1026]).sOf (MUnit.cru 0) (fD 1 2 0 0 0).sx) 0 23) 64 256 = some (tMouldPoison, 8208) ∧
  (til2 8192 [1026]).mqReady 0 (fD 1 2 0 0 0) { s := [(fD 1 2 0 0 0).sa] } ∧
  BitVec.toNat ((til2 8192 [1026]).sOf (MUnit.cru 0) (fD 1 2 0 0 0).sa) + (1 - 1) * 0 + 256 ≤ 6291456 ∧
  (til2 8192 [1026]).mpoRows (↑0 : Nat) (BitVec.toNat ((til2 8192 [1026]).sOf (MUnit.cru 0) (fD 1 2 0 0 0).sa)) 0 1 256 = some (tMouldPoison, 8208) := by
  and_intros <;> decide +kernel

theorem witness_MatrixMultiplyAccumulate :
  tile0.mqReady 0 (fD 1 2 2 0 0) { s := [(fD 1 2 2 0 0).sa, (fD 1 2 2 0 0).sb, (fD 1 2 2 0 0).sx] } ∧
  pairOk (fD 1 2 2 0 0).tya.toNat (fD 1 2 2 0 0).tyb.toNat = true ∧ (fD 1 2 2 0 0).rm = 0 ∧ (fD 1 2 2 0 0).sat = false ∧
  (fD 1 2 2 0 0).rsv = 0 ∧
  ((BitVec.toNat (tile0.sOf (MUnit.cru 0) (fD 1 2 2 0 0).sa) + 63 * if bitsOf (tile0.sOf (MUnit.cru 0) (fD 1 2 2 0 0).sx) 0 23 = 0 then (if (fD 1 2 2 0 0).tya = 23 then 128 else 64) * tyWidth (fD 1 2 2 0 0).tya.toNat / 8 else bitsOf (tile0.sOf (MUnit.cru 0) (fD 1 2 2 0 0).sx) 0 23) + (if (fD 1 2 2 0 0).tya = 23 then 128 else 64) * tyWidth (fD 1 2 2 0 0).tya.toNat / 8 ≤ 6291456 ∧ (BitVec.toNat (tile0.sOf (MUnit.cru 0) (fD 1 2 2 0 0).sb) + (if (fD 1 2 2 0 0).tya = 23 then 128 else 64) * 64 * tyWidth (fD 1 2 2 0 0).tyb.toNat / 8 + if isMx (fD 1 2 2 0 0).tya.toNat = true then 64 * ((if (fD 1 2 2 0 0).tya = 23 then 128 else 64) / 32) else 0) ≤ 6291456 ∧ (isMx (fD 1 2 2 0 0).tya.toNat = true → (bitsOf (tile0.sOf (MUnit.cru 0) (fD 1 2 2 0 0).sx) 23 23 + if isMx (fD 1 2 2 0 0).tya.toNat = true then 64 * ((if (fD 1 2 2 0 0).tya = 23 then 128 else 64) / 32) else 0) ≤ 6291456)) ∧
  (BitVec.toNat (tile0.sOf (MUnit.cru 0) (fD 1 2 2 0 0).sa) % 16 = 0 ∧ bitsOf (tile0.sOf (MUnit.cru 0) (fD 1 2 2 0 0).sx) 0 23 % 16 = 0 ∧ BitVec.toNat (tile0.sOf (MUnit.cru 0) (fD 1 2 2 0 0).sb) % 64 = 0 ∧ (isMx (fD 1 2 2 0 0).tya.toNat = true → bitsOf (tile0.sOf (MUnit.cru 0) (fD 1 2 2 0 0).sx) 23 23 % 64 = 0)) ∧
  (firstTrap [tile0.mpoRows (↑0 : Nat) (BitVec.toNat (tile0.sOf (MUnit.cru 0) (fD 1 2 2 0 0).sa)) (if bitsOf (tile0.sOf (MUnit.cru 0) (fD 1 2 2 0 0).sx) 0 23 = 0 then (if (fD 1 2 2 0 0).tya = 23 then 128 else 64) * tyWidth (fD 1 2 2 0 0).tya.toNat / 8 else bitsOf (tile0.sOf (MUnit.cru 0) (fD 1 2 2 0 0).sx) 0 23) 64 ((if (fD 1 2 2 0 0).tya = 23 then 128 else 64) * tyWidth (fD 1 2 2 0 0).tya.toNat / 8), tile0.mpoRows (↑0 : Nat) (BitVec.toNat (tile0.sOf (MUnit.cru 0) (fD 1 2 2 0 0).sb)) 0 1 ((if (fD 1 2 2 0 0).tya = 23 then 128 else 64) * 64 * tyWidth (fD 1 2 2 0 0).tyb.toNat / 8), if isMx (fD 1 2 2 0 0).tya.toNat = true then tile0.mpoRows (↑0 : Nat) (bitsOf (tile0.sOf (MUnit.cru 0) (fD 1 2 2 0 0).sx) 23 23) 0 1 (if isMx (fD 1 2 2 0 0).tya.toNat = true then 64 * ((if (fD 1 2 2 0 0).tya = 23 then 128 else 64) / 32) else 0) else none, if isMx (fD 1 2 2 0 0).tya.toNat = true then tile0.mpoRows (↑0 : Nat) (BitVec.toNat (tile0.sOf (MUnit.cru 0) (fD 1 2 2 0 0).sb) + (if (fD 1 2 2 0 0).tya = 23 then 128 else 64) * 64 * tyWidth (fD 1 2 2 0 0).tyb.toNat / 8) 0 1 (if isMx (fD 1 2 2 0 0).tya.toNat = true then 64 * ((if (fD 1 2 2 0 0).tya = 23 then 128 else 64) / 32) else 0) else none] = none) ∧
  (til2 6291424 []).mqReady 0 (fD 1 2 2 0 0) { s := [(fD 1 2 2 0 0).sa, (fD 1 2 2 0 0).sb, (fD 1 2 2 0 0).sx] } ∧
  (¬((BitVec.toNat ((til2 6291424 []).sOf (MUnit.cru 0) (fD 1 2 2 0 0).sa) + 63 * if bitsOf ((til2 6291424 []).sOf (MUnit.cru 0) (fD 1 2 2 0 0).sx) 0 23 = 0 then (if (fD 1 2 2 0 0).tya = 23 then 128 else 64) * tyWidth (fD 1 2 2 0 0).tya.toNat / 8 else bitsOf ((til2 6291424 []).sOf (MUnit.cru 0) (fD 1 2 2 0 0).sx) 0 23) + (if (fD 1 2 2 0 0).tya = 23 then 128 else 64) * tyWidth (fD 1 2 2 0 0).tya.toNat / 8 ≤ 6291456 ∧ (BitVec.toNat ((til2 6291424 []).sOf (MUnit.cru 0) (fD 1 2 2 0 0).sb) + (if (fD 1 2 2 0 0).tya = 23 then 128 else 64) * 64 * tyWidth (fD 1 2 2 0 0).tyb.toNat / 8 + if isMx (fD 1 2 2 0 0).tya.toNat = true then 64 * ((if (fD 1 2 2 0 0).tya = 23 then 128 else 64) / 32) else 0) ≤ 6291456 ∧ (isMx (fD 1 2 2 0 0).tya.toNat = true → (bitsOf ((til2 6291424 []).sOf (MUnit.cru 0) (fD 1 2 2 0 0).sx) 23 23 + if isMx (fD 1 2 2 0 0).tya.toNat = true then 64 * ((if (fD 1 2 2 0 0).tya = 23 then 128 else 64) / 32) else 0) ≤ 6291456))) ∧
  (til2 8200 []).mqReady 0 (fD 1 2 2 0 0) { s := [(fD 1 2 2 0 0).sa, (fD 1 2 2 0 0).sb, (fD 1 2 2 0 0).sx] } ∧
  ((BitVec.toNat ((til2 8200 []).sOf (MUnit.cru 0) (fD 1 2 2 0 0).sa) + 63 * if bitsOf ((til2 8200 []).sOf (MUnit.cru 0) (fD 1 2 2 0 0).sx) 0 23 = 0 then (if (fD 1 2 2 0 0).tya = 23 then 128 else 64) * tyWidth (fD 1 2 2 0 0).tya.toNat / 8 else bitsOf ((til2 8200 []).sOf (MUnit.cru 0) (fD 1 2 2 0 0).sx) 0 23) + (if (fD 1 2 2 0 0).tya = 23 then 128 else 64) * tyWidth (fD 1 2 2 0 0).tya.toNat / 8 ≤ 6291456 ∧ (BitVec.toNat ((til2 8200 []).sOf (MUnit.cru 0) (fD 1 2 2 0 0).sb) + (if (fD 1 2 2 0 0).tya = 23 then 128 else 64) * 64 * tyWidth (fD 1 2 2 0 0).tyb.toNat / 8 + if isMx (fD 1 2 2 0 0).tya.toNat = true then 64 * ((if (fD 1 2 2 0 0).tya = 23 then 128 else 64) / 32) else 0) ≤ 6291456 ∧ (isMx (fD 1 2 2 0 0).tya.toNat = true → (bitsOf ((til2 8200 []).sOf (MUnit.cru 0) (fD 1 2 2 0 0).sx) 23 23 + if isMx (fD 1 2 2 0 0).tya.toNat = true then 64 * ((if (fD 1 2 2 0 0).tya = 23 then 128 else 64) / 32) else 0) ≤ 6291456)) ∧
  (¬(BitVec.toNat ((til2 8200 []).sOf (MUnit.cru 0) (fD 1 2 2 0 0).sa) % 16 = 0 ∧ bitsOf ((til2 8200 []).sOf (MUnit.cru 0) (fD 1 2 2 0 0).sx) 0 23 % 16 = 0 ∧ BitVec.toNat ((til2 8200 []).sOf (MUnit.cru 0) (fD 1 2 2 0 0).sb) % 64 = 0 ∧ (isMx (fD 1 2 2 0 0).tya.toNat = true → bitsOf ((til2 8200 []).sOf (MUnit.cru 0) (fD 1 2 2 0 0).sx) 23 23 % 64 = 0))) ∧
  (til2 8192 [1026]).mqReady 0 (fD 1 2 2 0 0) { s := [(fD 1 2 2 0 0).sa, (fD 1 2 2 0 0).sb, (fD 1 2 2 0 0).sx] } ∧
  ((BitVec.toNat ((til2 8192 [1026]).sOf (MUnit.cru 0) (fD 1 2 2 0 0).sa) + 63 * if bitsOf ((til2 8192 [1026]).sOf (MUnit.cru 0) (fD 1 2 2 0 0).sx) 0 23 = 0 then (if (fD 1 2 2 0 0).tya = 23 then 128 else 64) * tyWidth (fD 1 2 2 0 0).tya.toNat / 8 else bitsOf ((til2 8192 [1026]).sOf (MUnit.cru 0) (fD 1 2 2 0 0).sx) 0 23) + (if (fD 1 2 2 0 0).tya = 23 then 128 else 64) * tyWidth (fD 1 2 2 0 0).tya.toNat / 8 ≤ 6291456 ∧ (BitVec.toNat ((til2 8192 [1026]).sOf (MUnit.cru 0) (fD 1 2 2 0 0).sb) + (if (fD 1 2 2 0 0).tya = 23 then 128 else 64) * 64 * tyWidth (fD 1 2 2 0 0).tyb.toNat / 8 + if isMx (fD 1 2 2 0 0).tya.toNat = true then 64 * ((if (fD 1 2 2 0 0).tya = 23 then 128 else 64) / 32) else 0) ≤ 6291456 ∧ (isMx (fD 1 2 2 0 0).tya.toNat = true → (bitsOf ((til2 8192 [1026]).sOf (MUnit.cru 0) (fD 1 2 2 0 0).sx) 23 23 + if isMx (fD 1 2 2 0 0).tya.toNat = true then 64 * ((if (fD 1 2 2 0 0).tya = 23 then 128 else 64) / 32) else 0) ≤ 6291456)) ∧
  (BitVec.toNat ((til2 8192 [1026]).sOf (MUnit.cru 0) (fD 1 2 2 0 0).sa) % 16 = 0 ∧ bitsOf ((til2 8192 [1026]).sOf (MUnit.cru 0) (fD 1 2 2 0 0).sx) 0 23 % 16 = 0 ∧ BitVec.toNat ((til2 8192 [1026]).sOf (MUnit.cru 0) (fD 1 2 2 0 0).sb) % 64 = 0 ∧ (isMx (fD 1 2 2 0 0).tya.toNat = true → bitsOf ((til2 8192 [1026]).sOf (MUnit.cru 0) (fD 1 2 2 0 0).sx) 23 23 % 64 = 0)) ∧
  (firstTrap [(til2 8192 [1026]).mpoRows (↑0 : Nat) (BitVec.toNat ((til2 8192 [1026]).sOf (MUnit.cru 0) (fD 1 2 2 0 0).sa)) (if bitsOf ((til2 8192 [1026]).sOf (MUnit.cru 0) (fD 1 2 2 0 0).sx) 0 23 = 0 then (if (fD 1 2 2 0 0).tya = 23 then 128 else 64) * tyWidth (fD 1 2 2 0 0).tya.toNat / 8 else bitsOf ((til2 8192 [1026]).sOf (MUnit.cru 0) (fD 1 2 2 0 0).sx) 0 23) 64 ((if (fD 1 2 2 0 0).tya = 23 then 128 else 64) * tyWidth (fD 1 2 2 0 0).tya.toNat / 8), (til2 8192 [1026]).mpoRows (↑0 : Nat) (BitVec.toNat ((til2 8192 [1026]).sOf (MUnit.cru 0) (fD 1 2 2 0 0).sb)) 0 1 ((if (fD 1 2 2 0 0).tya = 23 then 128 else 64) * 64 * tyWidth (fD 1 2 2 0 0).tyb.toNat / 8), if isMx (fD 1 2 2 0 0).tya.toNat = true then (til2 8192 [1026]).mpoRows (↑0 : Nat) (bitsOf ((til2 8192 [1026]).sOf (MUnit.cru 0) (fD 1 2 2 0 0).sx) 23 23) 0 1 (if isMx (fD 1 2 2 0 0).tya.toNat = true then 64 * ((if (fD 1 2 2 0 0).tya = 23 then 128 else 64) / 32) else 0) else none, if isMx (fD 1 2 2 0 0).tya.toNat = true then (til2 8192 [1026]).mpoRows (↑0 : Nat) (BitVec.toNat ((til2 8192 [1026]).sOf (MUnit.cru 0) (fD 1 2 2 0 0).sb) + (if (fD 1 2 2 0 0).tya = 23 then 128 else 64) * 64 * tyWidth (fD 1 2 2 0 0).tyb.toNat / 8) 0 1 (if isMx (fD 1 2 2 0 0).tya.toNat = true then 64 * ((if (fD 1 2 2 0 0).tya = 23 then 128 else 64) / 32) else 0) else none] = some (tMouldPoison, 8208)) := by
  and_intros <;> decide +kernel

theorem witness_TileStore :
  tile1.mqReady 0 (fD 1 2 0 0 0) { s := [(fD 1 2 0 0 0).sa, (fD 1 2 0 0 0).sx] } ∧ (fD 1 2 0 0 0).sb = 0 ∧ (fD 1 2 0 0 0).tyb = 0 ∧
  (fD 1 2 0 0 0).z = false ∧ (fD 1 2 0 0 0).rsv = 0 ∧
  (((fD 1 2 0 0 0).tya = 0 ∨ (fD 1 2 0 0 0).tya = 10) ∧ (fD 1 2 0 0 0).rm = 0 ∧ (fD 1 2 0 0 0).sat = false ∨ ((fD 1 2 0 0 0).tya = 1 ∨ (fD 1 2 0 0 0).tya = 2 ∨ (fD 1 2 0 0 0).tya = 3 ∨ (fD 1 2 0 0 0).tya = 4 ∨ (fD 1 2 0 0 0).tya = 8) ∧ (fD 1 2 0 0 0).rm ≠ 3) ∧
  ((BitVec.toNat (tile1.sOf (MUnit.cru 0) (fD 1 2 0 0 0).sa) + 63 * if bitsOf (tile1.sOf (MUnit.cru 0) (fD 1 2 0 0 0).sx) 0 23 = 0 then 8 * tyWidth (fD 1 2 0 0 0).tya.toNat else bitsOf (tile1.sOf (MUnit.cru 0) (fD 1 2 0 0 0).sx) 0 23) + 8 * tyWidth (fD 1 2 0 0 0).tya.toNat ≤ 6291456) ∧
  (BitVec.toNat (tile1.sOf (MUnit.cru 0) (fD 1 2 0 0 0).sa) % 64 = 0 ∧ bitsOf (tile1.sOf (MUnit.cru 0) (fD 1 2 0 0 0).sx) 0 23 % 64 = 0) ∧
  (til2 6291424 []).mqReady 0 (fD 1 2 0 0 0) { s := [(fD 1 2 0 0 0).sa, (fD 1 2 0 0 0).sx] } ∧
  (¬(BitVec.toNat ((til2 6291424 []).sOf (MUnit.cru 0) (fD 1 2 0 0 0).sa) + 63 * if bitsOf ((til2 6291424 []).sOf (MUnit.cru 0) (fD 1 2 0 0 0).sx) 0 23 = 0 then 8 * tyWidth (fD 1 2 0 0 0).tya.toNat else bitsOf ((til2 6291424 []).sOf (MUnit.cru 0) (fD 1 2 0 0 0).sx) 0 23) + 8 * tyWidth (fD 1 2 0 0 0).tya.toNat ≤ 6291456) ∧
  (til2 8200 []).mqReady 0 (fD 1 2 0 0 0) { s := [(fD 1 2 0 0 0).sa, (fD 1 2 0 0 0).sx] } ∧
  ((BitVec.toNat ((til2 8200 []).sOf (MUnit.cru 0) (fD 1 2 0 0 0).sa) + 63 * if bitsOf ((til2 8200 []).sOf (MUnit.cru 0) (fD 1 2 0 0 0).sx) 0 23 = 0 then 8 * tyWidth (fD 1 2 0 0 0).tya.toNat else bitsOf ((til2 8200 []).sOf (MUnit.cru 0) (fD 1 2 0 0 0).sx) 0 23) + 8 * tyWidth (fD 1 2 0 0 0).tya.toNat ≤ 6291456) ∧
  (¬(BitVec.toNat ((til2 8200 []).sOf (MUnit.cru 0) (fD 1 2 0 0 0).sa) % 64 = 0 ∧ bitsOf ((til2 8200 []).sOf (MUnit.cru 0) (fD 1 2 0 0 0).sx) 0 23 % 64 = 0)) := by
  and_intros <;> decide +kernel

theorem witness_LoadsWriteTheirRegister :
  (memT mem0).xqReady 0 (mC 5 2 0 0).g { s := [(mC 5 2 0 0).base, (mC 5 2 0 0).idx, (mC 5 2 0 0).d] } ∧ (mC 5 2 0 0).rsv = 0 ∧
  (memT mem0).cruCheck (↑0 : Nat) ((memT mem0).addrOf (MUnit.cru 0) (mC 5 2 0 0)) 1 Right.read true = some (5, 8200) ∧
  mem0.xqReady 0 (mC 5 2 0 8).g { s := [(mC 5 2 0 8).base, (mC 5 2 0 8).idx, (mC 5 2 0 8).d] } ∧ (mC 5 2 0 8).rsv = 0 ∧
  mem0.accessOk 0 (mem0.addrOf (MUnit.cru 0) (mC 5 2 0 8)) 1 Right.read ∧
  mem0.cruDevice (↑0 : Nat) (mem0.addrOf (MUnit.cru 0) (mC 5 2 0 8)) = false ∧
  mem0.lineHere 0 (mem0.addrOf (MUnit.cru 0) (mC 5 2 0 8) / 64) cln1 ∧
  firstMark cln1.poison (mem0.addrOf (MUnit.cru 0) (mC 5 2 0 8) % 64) 1 = none ∧
  (memC clnP).xqReady 0 (mC 5 2 0 8).g { s := [(mC 5 2 0 8).base, (mC 5 2 0 8).idx, (mC 5 2 0 8).d] } ∧
  (memC clnP).accessOk 0 ((memC clnP).addrOf (MUnit.cru 0) (mC 5 2 0 8)) 1 Right.read ∧
  (memC clnP).cruDevice (↑0 : Nat) ((memC clnP).addrOf (MUnit.cru 0) (mC 5 2 0 8)) = false ∧
  (memC clnP).lineHere 0 ((memC clnP).addrOf (MUnit.cru 0) (mC 5 2 0 8) / 64) clnP ∧
  firstMark clnP.poison ((memC clnP).addrOf (MUnit.cru 0) (mC 5 2 0 8) % 64) 1 = some 1 ∧
  memA.xqReady 0 (mC 5 2 0 8).g { s := [(mC 5 2 0 8).base, (mC 5 2 0 8).idx, (mC 5 2 0 8).d] } ∧
  memA.accessOk 0 (memA.addrOf (MUnit.cru 0) (mC 5 2 0 8)) 1 Right.read ∧
  memA.lineAway 0 (memA.addrOf (MUnit.cru 0) (mC 5 2 0 8) / 64) hl ∧
  memL0.xqReady 0 (mC 5 2 0 8).g { s := [(mC 5 2 0 8).base, (mC 5 2 0 8).idx, (mC 5 2 0 8).d] } ∧
  memL0.accessOk 0 (memL0.addrOf (MUnit.cru 0) (mC 5 2 0 8)) 1 Right.read ∧
  memL0.lineLost 0 (memL0.addrOf (MUnit.cru 0) (mC 5 2 0 8) / 64) ∧ coreT.canRun (MUnit.core 0 0) (mC 5 2 0 0).g { } ∧
  coreT.poolCheck (MUnit.core 0 0) (coreT.addrOf (MUnit.core 0 0) (mC 5 2 0 0)) 1 Right.read true = some (5, 8200) ∧
  coreM.canRun (MUnit.core 0 0) (mC 5 2 0 0).g { } ∧ coreM.codeOk 0 0 (coreM.addrOf (MUnit.core 0 0) (mC 5 2 0 0)) 1 ∧
  coreP.canRun (MUnit.core 0 0) (mC 5 2 0 8).g { } ∧
  coreP.poolCheck (MUnit.core 0 0) (coreP.addrOf (MUnit.core 0 0) (mC 5 2 0 8)) 1 Right.read true = none ∧
  coreP.inCodeWindow (coreP.addrOf (MUnit.core 0 0) (mC 5 2 0 8)) = false ∧
  coreP.homeUp (coreP.addrOf (MUnit.core 0 0) (mC 5 2 0 8) / 64) = some hl ∧
  coreP.posted (aidCore (coreIx 0 0)) (coreP.addrOf (MUnit.core 0 0) (mC 5 2 0 8) / 64) = false ∧
  coreP.hasCredit (aidCore (coreIx 0 0)) hl = true ∧ coreL.canRun (MUnit.core 0 0) (mC 5 2 0 8).g { } ∧
  coreL.poolCheck (MUnit.core 0 0) (coreL.addrOf (MUnit.core 0 0) (mC 5 2 0 8)) 1 Right.read true = none ∧
  coreL.inCodeWindow (coreL.addrOf (MUnit.core 0 0) (mC 5 2 0 8)) = false ∧
  coreL.homeUp (coreL.addrOf (MUnit.core 0 0) (mC 5 2 0 8) / 64) = none ∧
  (memT mem0).cruCheck (↑0 : Nat) ((memT mem0).addrOf (MUnit.cru 0) (mC 5 2 0 0)) 2 Right.read true = some (5, 8200) ∧
  mem0.accessOk 0 (mem0.addrOf (MUnit.cru 0) (mC 5 2 0 8)) 2 Right.read ∧
  firstMark cln1.poison (mem0.addrOf (MUnit.cru 0) (mC 5 2 0 8) % 64) 2 = none ∧
  (memC clnP).accessOk 0 ((memC clnP).addrOf (MUnit.cru 0) (mC 5 2 0 8)) 2 Right.read ∧
  firstMark clnP.poison ((memC clnP).addrOf (MUnit.cru 0) (mC 5 2 0 8) % 64) 2 = some 1 ∧
  memA.accessOk 0 (memA.addrOf (MUnit.cru 0) (mC 5 2 0 8)) 2 Right.read ∧
  memL0.accessOk 0 (memL0.addrOf (MUnit.cru 0) (mC 5 2 0 8)) 2 Right.read ∧
  coreT.poolCheck (MUnit.core 0 0) (coreT.addrOf (MUnit.core 0 0) (mC 5 2 0 0)) 2 Right.read true = some (5, 8200) ∧
  coreM.codeOk 0 0 (coreM.addrOf (MUnit.core 0 0) (mC 5 2 0 0)) 2 ∧
  coreP.poolCheck (MUnit.core 0 0) (coreP.addrOf (MUnit.core 0 0) (mC 5 2 0 8)) 2 Right.read true = none ∧
  coreL.poolCheck (MUnit.core 0 0) (coreL.addrOf (MUnit.core 0 0) (mC 5 2 0 8)) 2 Right.read true = none ∧
  (memT mem0).cruCheck (↑0 : Nat) ((memT mem0).addrOf (MUnit.cru 0) (mC 5 2 0 0)) 4 Right.read true = some (5, 8200) ∧
  mem0.accessOk 0 (mem0.addrOf (MUnit.cru 0) (mC 5 2 0 8)) 4 Right.read ∧
  firstMark cln1.poison (mem0.addrOf (MUnit.cru 0) (mC 5 2 0 8) % 64) 4 = none ∧
  (memC clnP).accessOk 0 ((memC clnP).addrOf (MUnit.cru 0) (mC 5 2 0 8)) 4 Right.read ∧
  firstMark clnP.poison ((memC clnP).addrOf (MUnit.cru 0) (mC 5 2 0 8) % 64) 4 = some 1 ∧
  memA.accessOk 0 (memA.addrOf (MUnit.cru 0) (mC 5 2 0 8)) 4 Right.read ∧
  memL0.accessOk 0 (memL0.addrOf (MUnit.cru 0) (mC 5 2 0 8)) 4 Right.read ∧
  coreT.poolCheck (MUnit.core 0 0) (coreT.addrOf (MUnit.core 0 0) (mC 5 2 0 0)) 4 Right.read true = some (5, 8200) ∧
  coreM.codeOk 0 0 (coreM.addrOf (MUnit.core 0 0) (mC 5 2 0 0)) 4 ∧
  coreP.poolCheck (MUnit.core 0 0) (coreP.addrOf (MUnit.core 0 0) (mC 5 2 0 8)) 4 Right.read true = none ∧
  coreL.poolCheck (MUnit.core 0 0) (coreL.addrOf (MUnit.core 0 0) (mC 5 2 0 8)) 4 Right.read true = none ∧
  (memT mem0).cruCheck (↑0 : Nat) ((memT mem0).addrOf (MUnit.cru 0) (mC 5 2 0 0)) 8 Right.read true = some (5, 8200) ∧
  mem0.accessOk 0 (mem0.addrOf (MUnit.cru 0) (mC 5 2 0 8)) 8 Right.read ∧
  firstMark cln1.poison (mem0.addrOf (MUnit.cru 0) (mC 5 2 0 8) % 64) 8 = none ∧
  (memC clnP).accessOk 0 ((memC clnP).addrOf (MUnit.cru 0) (mC 5 2 0 8)) 8 Right.read ∧
  firstMark clnP.poison ((memC clnP).addrOf (MUnit.cru 0) (mC 5 2 0 8) % 64) 8 = some 1 ∧
  memA.accessOk 0 (memA.addrOf (MUnit.cru 0) (mC 5 2 0 8)) 8 Right.read ∧
  memL0.accessOk 0 (memL0.addrOf (MUnit.cru 0) (mC 5 2 0 8)) 8 Right.read ∧
  coreT.poolCheck (MUnit.core 0 0) (coreT.addrOf (MUnit.core 0 0) (mC 5 2 0 0)) 8 Right.read true = some (5, 8200) ∧
  coreM.codeOk 0 0 (coreM.addrOf (MUnit.core 0 0) (mC 5 2 0 0)) 8 ∧
  coreP.poolCheck (MUnit.core 0 0) (coreP.addrOf (MUnit.core 0 0) (mC 5 2 0 8)) 8 Right.read true = none ∧
  coreL.poolCheck (MUnit.core 0 0) (coreL.addrOf (MUnit.core 0 0) (mC 5 2 0 8)) 8 Right.read true = none := by
  and_intros <;> decide +kernel

theorem witness_StoresWriteTheirBytes :
  (memT mem0).xqReady 0 (mC 3 2 0 0).g { s := [(mC 3 2 0 0).base, (mC 3 2 0 0).idx, (mC 3 2 0 0).d] } ∧ (memT mem0).storesFree 0 ∧
  (mC 3 2 0 0).rsv = 0 ∧
  (memT mem0).cruCheck (↑0 : Nat) ((memT mem0).addrOf (MUnit.cru 0) (mC 3 2 0 0)) 1 Right.write true = some (5, 8200) ∧
  mem0.xqReady 0 (mC 3 2 0 8).g { s := [(mC 3 2 0 8).base, (mC 3 2 0 8).idx, (mC 3 2 0 8).d] } ∧ mem0.storesFree 0 ∧
  (mC 3 2 0 8).rsv = 0 ∧ mem0.accessOk 0 (mem0.addrOf (MUnit.cru 0) (mC 3 2 0 8)) 1 Right.write ∧
  mem0.cruDevice (↑0 : Nat) (mem0.addrOf (MUnit.cru 0) (mC 3 2 0 8)) = false ∧
  mem0.lineHere 0 (mem0.addrOf (MUnit.cru 0) (mC 3 2 0 8) / 64) cln1 ∧ (cln1.st = CSt.d ∨ cln1.st = CSt.x) ∧
  (memC clnS).xqReady 0 (mC 3 2 0 8).g { s := [(mC 3 2 0 8).base, (mC 3 2 0 8).idx, (mC 3 2 0 8).d] } ∧ (memC clnS).storesFree 0 ∧
  (memC clnS).accessOk 0 ((memC clnS).addrOf (MUnit.cru 0) (mC 3 2 0 8)) 1 Right.write ∧
  (memC clnS).cruDevice (↑0 : Nat) ((memC clnS).addrOf (MUnit.cru 0) (mC 3 2 0 8)) = false ∧
  (memC clnS).lineHere 0 ((memC clnS).addrOf (MUnit.cru 0) (mC 3 2 0 8) / 64) clnS ∧ (clnS.st = CSt.s ∨ clnS.st = CSt.l) ∧
  (memC clnS).homeUp ((memC clnS).addrOf (MUnit.cru 0) (mC 3 2 0 8) / 64) = some hl ∧
  List.length ((memC clnS).cru (↑0 : Nat)).miss < 384 ∧ (memC clnS).hasCredit (↑0 : Nat) hl = true ∧
  memA.xqReady 0 (mC 3 2 0 8).g { s := [(mC 3 2 0 8).base, (mC 3 2 0 8).idx, (mC 3 2 0 8).d] } ∧ memA.storesFree 0 ∧
  memA.accessOk 0 (memA.addrOf (MUnit.cru 0) (mC 3 2 0 8)) 1 Right.write ∧
  memA.lineAway 0 (memA.addrOf (MUnit.cru 0) (mC 3 2 0 8) / 64) hl ∧
  memA.cruDevice (↑0 : Nat) (memA.addrOf (MUnit.cru 0) (mC 3 2 0 8)) = false ∧ (memA.cru (↑0 : Nat)).installs = true ∧
  memB.xqReady 0 (mC 3 2 0 8).g { s := [(mC 3 2 0 8).base, (mC 3 2 0 8).idx, (mC 3 2 0 8).d] } ∧ memB.storesFree 0 ∧
  memB.accessOk 0 (memB.addrOf (MUnit.cru 0) (mC 3 2 0 8)) 1 Right.write ∧
  memB.lineAway 0 (memB.addrOf (MUnit.cru 0) (mC 3 2 0 8) / 64) hl ∧
  (memB.cruDevice (↑0 : Nat) (memB.addrOf (MUnit.cru 0) (mC 3 2 0 8)) = true ∨ (memB.cru (↑0 : Nat)).installs = false) ∧
  memL0.xqReady 0 (mC 3 2 0 8).g { s := [(mC 3 2 0 8).base, (mC 3 2 0 8).idx, (mC 3 2 0 8).d] } ∧ memL0.storesFree 0 ∧
  memL0.accessOk 0 (memL0.addrOf (MUnit.cru 0) (mC 3 2 0 8)) 1 Right.write ∧
  memL0.lineLost 0 (memL0.addrOf (MUnit.cru 0) (mC 3 2 0 8) / 64) ∧ coreT.canRun (MUnit.core 0 0) (mC 3 2 0 0).g { } ∧
  coreT.poolCheck (MUnit.core 0 0) (coreT.addrOf (MUnit.core 0 0) (mC 3 2 0 0)) 1 Right.write true = some (5, 8200) ∧
  coreM.canRun (MUnit.core 0 0) (mC 1 2 0 0).g { } ∧ (mC 1 2 0 0).rsv = 0 ∧
  coreM.inCodeWindow (coreM.addrOf (MUnit.core 0 0) (mC 1 2 0 0)) = true ∧ coreM.addrOf (MUnit.core 0 0) (mC 1 2 0 0) < 2 ^ 41 ∧
  coreM.addrOf (MUnit.core 0 0) (mC 1 2 0 0) % 1 = 0 ∧ coreM.codeWindow + 5242880 ≤ coreM.addrOf (MUnit.core 0 0) (mC 1 2 0 0) ∧
  Memory.wf coreM.code = true ∧
  (0 < (↑0 : Nat) * 2 ^ 23 + (coreM.addrOf (MUnit.core 0 0) (mC 1 2 0 0) - coreM.codeWindow) ∨ (↑0 : Nat) * 2 ^ 23 + (coreM.addrOf (MUnit.core 0 0) (mC 1 2 0 0) - coreM.codeWindow) + 1 ≤ 0) ∧
  coreP.canRun (MUnit.core 0 0) (mC 1 2 0 8).g { } ∧ (mC 1 2 0 8).rsv = 0 ∧
  coreP.poolCheck (MUnit.core 0 0) (coreP.addrOf (MUnit.core 0 0) (mC 1 2 0 8)) 1 Right.write true = none ∧
  coreP.inCodeWindow (coreP.addrOf (MUnit.core 0 0) (mC 1 2 0 8)) = false ∧
  coreP.homeUp (coreP.addrOf (MUnit.core 0 0) (mC 1 2 0 8) / 64) = some hl ∧
  coreP.posted (aidCore (coreIx 0 0)) (coreP.addrOf (MUnit.core 0 0) (mC 1 2 0 8) / 64) = false ∧
  coreP.hasCredit (aidCore (coreIx 0 0)) hl = true ∧ coreL.canRun (MUnit.core 0 0) (mC 1 2 0 8).g { } ∧
  coreL.poolCheck (MUnit.core 0 0) (coreL.addrOf (MUnit.core 0 0) (mC 1 2 0 8)) 1 Right.write true = none ∧
  coreL.inCodeWindow (coreL.addrOf (MUnit.core 0 0) (mC 1 2 0 8)) = false ∧
  coreL.homeUp (coreL.addrOf (MUnit.core 0 0) (mC 1 2 0 8) / 64) = none ∧
  (memT mem0).cruCheck (↑0 : Nat) ((memT mem0).addrOf (MUnit.cru 0) (mC 3 2 0 0)) 2 Right.write true = some (5, 8200) ∧
  mem0.accessOk 0 (mem0.addrOf (MUnit.cru 0) (mC 3 2 0 8)) 2 Right.write ∧
  (memC clnS).accessOk 0 ((memC clnS).addrOf (MUnit.cru 0) (mC 3 2 0 8)) 2 Right.write ∧
  memA.accessOk 0 (memA.addrOf (MUnit.cru 0) (mC 3 2 0 8)) 2 Right.write ∧
  memB.accessOk 0 (memB.addrOf (MUnit.cru 0) (mC 3 2 0 8)) 2 Right.write ∧
  memL0.accessOk 0 (memL0.addrOf (MUnit.cru 0) (mC 3 2 0 8)) 2 Right.write ∧
  coreT.poolCheck (MUnit.core 0 0) (coreT.addrOf (MUnit.core 0 0) (mC 3 2 0 0)) 2 Right.write true = some (5, 8200) ∧
  coreM.addrOf (MUnit.core 0 0) (mC 1 2 0 0) % 2 = 0 ∧
  (0 < (↑0 : Nat) * 2 ^ 23 + (coreM.addrOf (MUnit.core 0 0) (mC 1 2 0 0) - coreM.codeWindow) ∨ (↑0 : Nat) * 2 ^ 23 + (coreM.addrOf (MUnit.core 0 0) (mC 1 2 0 0) - coreM.codeWindow) + 2 ≤ 0) ∧
  coreP.poolCheck (MUnit.core 0 0) (coreP.addrOf (MUnit.core 0 0) (mC 1 2 0 8)) 2 Right.write true = none ∧
  coreL.poolCheck (MUnit.core 0 0) (coreL.addrOf (MUnit.core 0 0) (mC 1 2 0 8)) 2 Right.write true = none ∧
  (memT mem0).cruCheck (↑0 : Nat) ((memT mem0).addrOf (MUnit.cru 0) (mC 3 2 0 0)) 4 Right.write true = some (5, 8200) ∧
  mem0.accessOk 0 (mem0.addrOf (MUnit.cru 0) (mC 3 2 0 8)) 4 Right.write ∧
  (memC clnS).accessOk 0 ((memC clnS).addrOf (MUnit.cru 0) (mC 3 2 0 8)) 4 Right.write ∧
  memA.accessOk 0 (memA.addrOf (MUnit.cru 0) (mC 3 2 0 8)) 4 Right.write ∧
  memB.accessOk 0 (memB.addrOf (MUnit.cru 0) (mC 3 2 0 8)) 4 Right.write ∧
  memL0.accessOk 0 (memL0.addrOf (MUnit.cru 0) (mC 3 2 0 8)) 4 Right.write ∧
  coreT.poolCheck (MUnit.core 0 0) (coreT.addrOf (MUnit.core 0 0) (mC 3 2 0 0)) 4 Right.write true = some (5, 8200) ∧
  coreM.addrOf (MUnit.core 0 0) (mC 1 2 0 0) % 4 = 0 ∧
  (0 < (↑0 : Nat) * 2 ^ 23 + (coreM.addrOf (MUnit.core 0 0) (mC 1 2 0 0) - coreM.codeWindow) ∨ (↑0 : Nat) * 2 ^ 23 + (coreM.addrOf (MUnit.core 0 0) (mC 1 2 0 0) - coreM.codeWindow) + 4 ≤ 0) ∧
  coreP.poolCheck (MUnit.core 0 0) (coreP.addrOf (MUnit.core 0 0) (mC 1 2 0 8)) 4 Right.write true = none ∧
  coreL.poolCheck (MUnit.core 0 0) (coreL.addrOf (MUnit.core 0 0) (mC 1 2 0 8)) 4 Right.write true = none ∧
  (memT mem0).cruCheck (↑0 : Nat) ((memT mem0).addrOf (MUnit.cru 0) (mC 3 2 0 0)) 8 Right.write true = some (5, 8200) ∧
  mem0.accessOk 0 (mem0.addrOf (MUnit.cru 0) (mC 3 2 0 8)) 8 Right.write ∧
  (memC clnS).accessOk 0 ((memC clnS).addrOf (MUnit.cru 0) (mC 3 2 0 8)) 8 Right.write ∧
  memA.accessOk 0 (memA.addrOf (MUnit.cru 0) (mC 3 2 0 8)) 8 Right.write ∧
  memB.accessOk 0 (memB.addrOf (MUnit.cru 0) (mC 3 2 0 8)) 8 Right.write ∧
  memL0.accessOk 0 (memL0.addrOf (MUnit.cru 0) (mC 3 2 0 8)) 8 Right.write ∧
  coreT.poolCheck (MUnit.core 0 0) (coreT.addrOf (MUnit.core 0 0) (mC 3 2 0 0)) 8 Right.write true = some (5, 8200) ∧
  coreM.addrOf (MUnit.core 0 0) (mC 1 2 0 0) % 8 = 0 ∧
  (0 < (↑0 : Nat) * 2 ^ 23 + (coreM.addrOf (MUnit.core 0 0) (mC 1 2 0 0) - coreM.codeWindow) ∨ (↑0 : Nat) * 2 ^ 23 + (coreM.addrOf (MUnit.core 0 0) (mC 1 2 0 0) - coreM.codeWindow) + 8 ≤ 0) ∧
  coreP.poolCheck (MUnit.core 0 0) (coreP.addrOf (MUnit.core 0 0) (mC 1 2 0 8)) 8 Right.write true = none ∧
  coreL.poolCheck (MUnit.core 0 0) (coreL.addrOf (MUnit.core 0 0) (mC 1 2 0 8)) 8 Right.write true = none := by
  and_intros <;> decide +kernel

theorem witness_PairsAndReservations :
  (mC 4 2 0 0).rsv = 0 ∧ (mC 4 2 0 0).d.getLsbD 0 = false ∧
  (memT mem0).xqReady 0 (mC 4 2 0 0).g { s := [(mC 4 2 0 0).base, (mC 4 2 0 0).idx, (mC 4 2 0 0).d, oddOf (mC 4 2 0 0).d] } ∧
  (memT mem0).cruCheck (↑0 : Nat) ((memT mem0).addrOf (MUnit.cru 0) (mC 4 2 0 0)) 16 Right.read true = some (5, 8200) ∧
  (memT mem0).storesFree 0 ∧
  (memT mem0).cruCheck (↑0 : Nat) ((memT mem0).addrOf (MUnit.cru 0) (mC 4 2 0 0)) 16 Right.write true = some (5, 8200) ∧
  (mC 4 2 0 16).rsv = 0 ∧ (mC 4 2 0 16).d.getLsbD 0 = false ∧
  mem0.xqReady 0 (mC 4 2 0 16).g { s := [(mC 4 2 0 16).base, (mC 4 2 0 16).idx, (mC 4 2 0 16).d, oddOf (mC 4 2 0 16).d] } ∧
  mem0.accessOk 0 (mem0.addrOf (MUnit.cru 0) (mC 4 2 0 16)) 16 Right.read ∧
  mem0.cruDevice (↑0 : Nat) (mem0.addrOf (MUnit.cru 0) (mC 4 2 0 16)) = false ∧
  mem0.lineHere 0 (mem0.addrOf (MUnit.cru 0) (mC 4 2 0 16) / 64) cln1 ∧
  firstMark cln1.poison (mem0.addrOf (MUnit.cru 0) (mC 4 2 0 16) % 64) 16 = none ∧
  memA.xqReady 0 (mC 4 2 0 16).g { s := [(mC 4 2 0 16).base, (mC 4 2 0 16).idx, (mC 4 2 0 16).d, oddOf (mC 4 2 0 16).d] } ∧
  memA.accessOk 0 (memA.addrOf (MUnit.cru 0) (mC 4 2 0 16)) 16 Right.read ∧
  memA.lineAway 0 (memA.addrOf (MUnit.cru 0) (mC 4 2 0 16) / 64) hl ∧ mem0.storesFree 0 ∧
  mem0.accessOk 0 (mem0.addrOf (MUnit.cru 0) (mC 4 2 0 16)) 16 Right.write ∧ (cln1.st = CSt.d ∨ cln1.st = CSt.x) ∧ memA.storesFree 0 ∧
  memA.accessOk 0 (memA.addrOf (MUnit.cru 0) (mC 4 2 0 16)) 16 Right.write ∧
  memA.cruDevice (↑0 : Nat) (memA.addrOf (MUnit.cru 0) (mC 4 2 0 16)) = false ∧ (memA.cru (↑0 : Nat)).installs = true ∧
  memDev.xqReady 0 (mC 4 2 0 16).g { s := [(mC 4 2 0 16).base, (mC 4 2 0 16).idx, (mC 4 2 0 16).d, oddOf (mC 4 2 0 16).d] } ∧
  memDev.storesFree 0 ∧ memDev.accessOk 0 (memDev.addrOf (MUnit.cru 0) (mC 4 2 0 16)) 16 Right.write ∧
  memDev.lineAway 0 (memDev.addrOf (MUnit.cru 0) (mC 4 2 0 16) / 64) hl ∧
  memDev.cruDevice (↑0 : Nat) (memDev.addrOf (MUnit.cru 0) (mC 4 2 0 16)) = true ∧ (mC 4 2 0 16).sh = 0 ∧ (mC 4 2 0 16).idx = 0 ∧
  memR0.accessOk 0 (memR0.addrOf (MUnit.cru 0) (mC 4 2 0 16)) 8 Right.read ∧
  memR0.xqReady 0 (mC 4 2 0 16).g { s := [(mC 4 2 0 16).base, (mC 4 2 0 16).idx, (mC 4 2 0 16).d] } ∧
  memR0.cruDevice (↑0 : Nat) (memR0.addrOf (MUnit.cru 0) (mC 4 2 0 16)) = false ∧ memR0.cacheHeld (↑0 : Nat) = true ∧
  memR0.lineHere 0 (memR0.addrOf (MUnit.cru 0) (mC 4 2 0 16) / 64) cln1 ∧
  firstMark cln1.poison (memR0.addrOf (MUnit.cru 0) (mC 4 2 0 16) % 64) 8 = none ∧
  memA.accessOk 0 (memA.addrOf (MUnit.cru 0) (mC 4 2 0 16)) 8 Right.read ∧
  memA.xqReady 0 (mC 4 2 0 16).g { s := [(mC 4 2 0 16).base, (mC 4 2 0 16).idx, (mC 4 2 0 16).d] } ∧ (mC 4 2 6 16).rsv = 0 ∧
  (mC 4 2 6 16).sh = 0 ∧ memRD.storesFree 0 ∧
  memRD.accessOk 0 (BitVec.toNat (memRD.sOf (MUnit.cru 0) (mC 4 2 6 16).base + BitVec.signExtend 64 (mC 4 2 6 16).off)) 8 Right.write ∧
  memRD.xqReady 0 (mC 4 2 6 16).g { s := [(mC 4 2 6 16).base, (mC 4 2 6 16).d, (mC 4 2 6 16).idx] } ∧
  memRD.cruDevice (↑0 : Nat) (BitVec.toNat (memRD.sOf (MUnit.cru 0) (mC 4 2 6 16).base + BitVec.signExtend 64 (mC 4 2 6 16).off)) = true ∧
  memR1.storesFree 0 ∧
  memR1.accessOk 0 (BitVec.toNat (memR1.sOf (MUnit.cru 0) (mC 4 2 6 16).base + BitVec.signExtend 64 (mC 4 2 6 16).off)) 8 Right.write ∧
  memR1.xqReady 0 (mC 4 2 6 16).g { s := [(mC 4 2 6 16).base, (mC 4 2 6 16).d, (mC 4 2 6 16).idx] } ∧
  memR1.cruDevice (↑0 : Nat) (BitVec.toNat (memR1.sOf (MUnit.cru 0) (mC 4 2 6 16).base + BitVec.signExtend 64 (mC 4 2 6 16).off)) = false ∧
  memR1.cacheHeld (↑0 : Nat) = true ∧ memR1.holdsHome (↑0 : Nat) = false ∧
  (memR1.cru (↑0 : Nat)).resv = some (BitVec.toNat (memR1.sOf (MUnit.cru 0) (mC 4 2 6 16).base + BitVec.signExtend 64 (mC 4 2 6 16).off) / 64) ∧
  memR1.lineHere 0 (BitVec.toNat (memR1.sOf (MUnit.cru 0) (mC 4 2 6 16).base + BitVec.signExtend 64 (mC 4 2 6 16).off) / 64) cln1 ∧
  memR0.storesFree 0 ∧
  memR0.accessOk 0 (BitVec.toNat (memR0.sOf (MUnit.cru 0) (mC 4 2 6 16).base + BitVec.signExtend 64 (mC 4 2 6 16).off)) 8 Right.write ∧
  memR0.xqReady 0 (mC 4 2 6 16).g { s := [(mC 4 2 6 16).base, (mC 4 2 6 16).d, (mC 4 2 6 16).idx] } ∧
  memR0.cruDevice (↑0 : Nat) (BitVec.toNat (memR0.sOf (MUnit.cru 0) (mC 4 2 6 16).base + BitVec.signExtend 64 (mC 4 2 6 16).off)) = false ∧
  memR0.holdsHome (↑0 : Nat) = false ∧
  (memR0.cru (↑0 : Nat)).resv ≠ some (BitVec.toNat (memR0.sOf (MUnit.cru 0) (mC 4 2 6 16).base + BitVec.signExtend 64 (mC 4 2 6 16).off) / 64) ∧
  tblFind (memR0.cru (↑0 : Nat)).miss (BitVec.toNat (memR0.sOf (MUnit.cru 0) (mC 4 2 6 16).base + BitVec.signExtend 64 (mC 4 2 6 16).off) / 64) = none ∧
  memA.accessOk 0 (BitVec.toNat (memA.sOf (MUnit.cru 0) (mC 4 2 6 16).base + BitVec.signExtend 64 (mC 4 2 6 16).off)) 8 Right.write ∧
  memA.xqReady 0 (mC 4 2 6 16).g { s := [(mC 4 2 6 16).base, (mC 4 2 6 16).d, (mC 4 2 6 16).idx] } ∧
  memA.cruDevice (↑0 : Nat) (BitVec.toNat (memA.sOf (MUnit.cru 0) (mC 4 2 6 16).base + BitVec.signExtend 64 (mC 4 2 6 16).off)) = false ∧
  memA.cacheHeld (↑0 : Nat) = false ∧ memA.fld 180224 8 2 ≠ 1 ∧
  memA.lineAway 0 (BitVec.toNat (memA.sOf (MUnit.cru 0) (mC 4 2 6 16).base + BitVec.signExtend 64 (mC 4 2 6 16).off) / 64) hl ∧
  coreP.canRun (MUnit.core 0 0) (mC 4 2 0 16).g { } ∧
  ((fun a => coreP.inCodeWindow a = false ∧ coreP.homeUp (a / 64) = some hl ∧ coreP.posted (aidCore (coreIx 0 0)) (a / 64) = false ∧ coreP.hasCredit (aidCore (coreIx 0 0)) hl = true) (coreP.addrOf (MUnit.core 0 0) (mC 4 2 0 16))) ∧
  coreP.poolCheck (MUnit.core 0 0) (coreP.addrOf (MUnit.core 0 0) (mC 4 2 0 16)) 16 Right.read true = none ∧
  coreP.poolCheck (MUnit.core 0 0) (coreP.addrOf (MUnit.core 0 0) (mC 4 2 0 16)) 16 Right.write true = none ∧
  coreP.poolCheck (MUnit.core 0 0) (coreP.addrOf (MUnit.core 0 0) (mC 4 2 0 16)) 8 Right.read true = none ∧
  coreP.poolCheck (MUnit.core 0 0) (BitVec.toNat (coreP.sOf (MUnit.core 0 0) (mC 4 2 0 16).base + BitVec.signExtend 64 (mC 4 2 0 16).off)) 8 Right.write true = none ∧
  ((fun a => coreP.inCodeWindow a = false ∧ coreP.homeUp (a / 64) = some hl ∧ coreP.posted (aidCore (coreIx 0 0)) (a / 64) = false ∧ coreP.hasCredit (aidCore (coreIx 0 0)) hl = true) (BitVec.toNat (coreP.sOf (MUnit.core 0 0) (mC 4 2 0 16).base + BitVec.signExtend 64 (mC 4 2 0 16).off))) ∧
  coreP.fld 180224 8 2 ≠ 1 ∧ coreM.canRun (MUnit.core 0 0) (mC 4 2 6 0).g { } ∧ (mC 4 2 6 0).rsv = 0 ∧ (mC 4 2 6 0).sh = 0 ∧
  coreM.poolCheck (MUnit.core 0 0) (BitVec.toNat (coreM.sOf (MUnit.core 0 0) (mC 4 2 6 0).base + BitVec.signExtend 64 (mC 4 2 6 0).off)) 8 Right.write true = none ∧
  coreM.inCodeWindow (BitVec.toNat (coreM.sOf (MUnit.core 0 0) (mC 4 2 6 0).base + BitVec.signExtend 64 (mC 4 2 6 0).off)) = true ∧
  (coreM.core (coreIx 0 0)).codeResv ≠ some ((BitVec.toNat (coreM.sOf (MUnit.core 0 0) (mC 4 2 6 0).base + BitVec.signExtend 64 (mC 4 2 6 0).off) - coreM.codeWindow) / 64) := by
  and_intros <;> decide +kernel

theorem witness_LineTransfersAndRam :
  memRm.xqReady 0 (mC 4 2 0 0).g { s := [(mC 4 2 0 0).base, (mC 4 2 0 0).idx, (mC 4 2 0 0).d] } ∧ memRm.storesFree 0 ∧
  (mC 4 2 0 0).rsv = 0 ∧ memRm.mpoRows (↑0 : Nat) (BitVec.toNat (memRm.sOf (MUnit.cru 0) (mC 4 2 0 0).d)) 0 1 64 = none ∧
  BitVec.toNat (memRm.sOf (MUnit.cru 0) (mC 4 2 0 0).d) % 64 = 0 ∧
  BitVec.toNat (memRm.sOf (MUnit.cru 0) (mC 4 2 0 0).d) + 64 ≤ 6291456 ∧ memRm.addrOf (MUnit.cru 0) (mC 4 2 0 0) % 64 = 0 ∧
  memRm.addrOf (MUnit.cru 0) (mC 4 2 0 0) < 2 ^ 41 ∧
  memRm.flaskCheck (memRm.cru (↑0 : Nat)).mki.flask Right.write false (memRm.addrOf (MUnit.cru 0) (mC 4 2 0 0)) 64 = none ∧
  memRm.homeUp (memRm.addrOf (MUnit.cru 0) (mC 4 2 0 0) / 64) = some hl ∧
  memRm.posted (↑0 : Nat) (memRm.addrOf (MUnit.cru 0) (mC 4 2 0 0) / 64) = false ∧ memRm.hasCredit (↑0 : Nat) hl = true ∧
  memRl.xqReady 0 (mC 4 2 0 0).g { s := [(mC 4 2 0 0).base, (mC 4 2 0 0).idx, (mC 4 2 0 0).d] } ∧ memRl.storesFree 0 ∧
  memRl.mpoRows (↑0 : Nat) (BitVec.toNat (memRl.sOf (MUnit.cru 0) (mC 4 2 0 0).d)) 0 1 64 = none ∧
  BitVec.toNat (memRl.sOf (MUnit.cru 0) (mC 4 2 0 0).d) % 64 = 0 ∧
  BitVec.toNat (memRl.sOf (MUnit.cru 0) (mC 4 2 0 0).d) + 64 ≤ 6291456 ∧ memRl.addrOf (MUnit.cru 0) (mC 4 2 0 0) % 64 = 0 ∧
  memRl.addrOf (MUnit.cru 0) (mC 4 2 0 0) < 2 ^ 41 ∧
  memRl.flaskCheck (memRl.cru (↑0 : Nat)).mki.flask Right.write false (memRl.addrOf (MUnit.cru 0) (mC 4 2 0 0)) 64 = none ∧
  memRl.homeUp (memRl.addrOf (MUnit.cru 0) (mC 4 2 0 0) / 64) = none ∧ mem_d.xqReady 0 fCln.g { s := [fCln.base, fCln.idx] } ∧
  fCln.rsv = 0 ∧ fCln.d = 0 ∧ mem_d.addrOf (MUnit.cru 0) fCln < 2 ^ 41 ∧
  mem_d.flaskCheck (mem_d.cru (↑0 : Nat)).mki.flask Right.any true (mem_d.addrOf (MUnit.cru 0) fCln) 1 = none ∧
  (mem_d.cru (↑0 : Nat)).cst ≠ CacheSt.invalidating ∧ tblFind (mem_d.cru (↑0 : Nat)).wb (mem_d.addrOf (MUnit.cru 0) fCln / 64) = none ∧
  tblFind (mem_d.cru (↑0 : Nat)).miss (mem_d.addrOf (MUnit.cru 0) fCln / 64) = none ∧
  tblFind (mem_d.cru (↑0 : Nat)).cache (mem_d.addrOf (MUnit.cru 0) fCln / 64) = some cl_d ∧
  mem_d.homeUp (mem_d.addrOf (MUnit.cru 0) fCln / 64) = some hl ∧ List.length (mem_d.cru (↑0 : Nat)).wb < 32 ∧
  mem_d.hasCredit (↑0 : Nat) hl = true ∧ cl_d.st = CSt.d ∧ mem_x.xqReady 0 fCln.g { s := [fCln.base, fCln.idx] } ∧
  mem_x.addrOf (MUnit.cru 0) fCln < 2 ^ 41 ∧
  mem_x.flaskCheck (mem_x.cru (↑0 : Nat)).mki.flask Right.any true (mem_x.addrOf (MUnit.cru 0) fCln) 1 = none ∧
  (mem_x.cru (↑0 : Nat)).cst ≠ CacheSt.invalidating ∧ tblFind (mem_x.cru (↑0 : Nat)).wb (mem_x.addrOf (MUnit.cru 0) fCln / 64) = none ∧
  tblFind (mem_x.cru (↑0 : Nat)).miss (mem_x.addrOf (MUnit.cru 0) fCln / 64) = none ∧
  tblFind (mem_x.cru (↑0 : Nat)).cache (mem_x.addrOf (MUnit.cru 0) fCln / 64) = some cl_x ∧
  mem_x.homeUp (mem_x.addrOf (MUnit.cru 0) fCln / 64) = some hl ∧ List.length (mem_x.cru (↑0 : Nat)).wb < 32 ∧
  mem_x.hasCredit (↑0 : Nat) hl = true ∧ (cl_x.st = CSt.x ∨ cl_x.st = CSt.l) ∧ cl_x.st ≠ CSt.d ∧
  mem_s.xqReady 0 fCln.g { s := [fCln.base, fCln.idx] } ∧ mem_s.addrOf (MUnit.cru 0) fCln < 2 ^ 41 ∧
  mem_s.flaskCheck (mem_s.cru (↑0 : Nat)).mki.flask Right.any true (mem_s.addrOf (MUnit.cru 0) fCln) 1 = none ∧
  (mem_s.cru (↑0 : Nat)).cst ≠ CacheSt.invalidating ∧ tblFind (mem_s.cru (↑0 : Nat)).wb (mem_s.addrOf (MUnit.cru 0) fCln / 64) = none ∧
  tblFind (mem_s.cru (↑0 : Nat)).miss (mem_s.addrOf (MUnit.cru 0) fCln / 64) = none ∧
  tblFind (mem_s.cru (↑0 : Nat)).cache (mem_s.addrOf (MUnit.cru 0) fCln / 64) = some cl_s ∧ cl_s.st = CSt.s ∧
  memA.xqReady 0 fCln.g { s := [fCln.base, fCln.idx] } ∧ memA.addrOf (MUnit.cru 0) fCln < 2 ^ 41 ∧
  memA.flaskCheck (memA.cru (↑0 : Nat)).mki.flask Right.any true (memA.addrOf (MUnit.cru 0) fCln) 1 = none ∧
  (memA.cru (↑0 : Nat)).cst ≠ CacheSt.invalidating ∧ tblFind (memA.cru (↑0 : Nat)).wb (memA.addrOf (MUnit.cru 0) fCln / 64) = none ∧
  tblFind (memA.cru (↑0 : Nat)).miss (memA.addrOf (MUnit.cru 0) fCln / 64) = none ∧
  tblFind (memA.cru (↑0 : Nat)).cache (memA.addrOf (MUnit.cru 0) fCln / 64) = none ∧
  xfT.xqReady 0 xD5.g { s := [xD5.sa, xD5.sb, xD5.sx] } ∧ badXfer xD5 = false ∧
  (((fun (stream : Bool) => ({ pool := BitVec.toNat (xfT.sOf (MUnit.cru 0) xD5.sa), mould := BitVec.toNat (xfT.sOf (MUnit.cru 0) xD5.sb), pp := 64 * bitsOf (xfT.sOf (MUnit.cru 0) xD5.sx) 24 20, mp := 64 * bitsOf (xfT.sOf (MUnit.cru 0) xD5.sx) 44 20, len := bitsOf (xfT.sOf (MUnit.cru 0) xD5.sx) 0 12, rows := bitsOf (xfT.sOf (MUnit.cru 0) xD5.sx) 12 12, stream := stream } : Xfer)) false).total ≠ 0) ∧
  (xfT.xferCheck (↑0 : Nat) ((fun (stream : Bool) => ({ pool := BitVec.toNat (xfT.sOf (MUnit.cru 0) xD5.sa), mould := BitVec.toNat (xfT.sOf (MUnit.cru 0) xD5.sb), pp := 64 * bitsOf (xfT.sOf (MUnit.cru 0) xD5.sx) 24 20, mp := 64 * bitsOf (xfT.sOf (MUnit.cru 0) xD5.sx) 44 20, len := bitsOf (xfT.sOf (MUnit.cru 0) xD5.sx) 0 12, rows := bitsOf (xfT.sOf (MUnit.cru 0) xD5.sx) 12 12, stream := stream } : Xfer)) false) Right.read = some (6, 8200)) ∧
  xfT.storesFree 0 ∧
  (xfT.xferCheck (↑0 : Nat) ((fun (stream : Bool) => ({ pool := BitVec.toNat (xfT.sOf (MUnit.cru 0) xD5.sa), mould := BitVec.toNat (xfT.sOf (MUnit.cru 0) xD5.sb), pp := 64 * bitsOf (xfT.sOf (MUnit.cru 0) xD5.sx) 24 20, mp := 64 * bitsOf (xfT.sOf (MUnit.cru 0) xD5.sx) 44 20, len := bitsOf (xfT.sOf (MUnit.cru 0) xD5.sx) 0 12, rows := bitsOf (xfT.sOf (MUnit.cru 0) xD5.sx) 12 12, stream := stream } : Xfer)) false) Right.write = some (6, 8200)) ∧
  (xfS mem0 8192 64 (xW 0 1)).xqReady 0 xD5.g { s := [xD5.sa, xD5.sb, xD5.sx] } ∧
  bitsOf ((xfS mem0 8192 64 (xW 0 1)).sOf (MUnit.cru 0) xD5.sx) 0 12 * bitsOf ((xfS mem0 8192 64 (xW 0 1)).sOf (MUnit.cru 0) xD5.sx) 12 12 = 0 ∧
  (xfS mem0 8192 64 (xW 0 1)).storesFree 0 ∧ xfP.xqReady 0 xD5.g { s := [xD5.sa, xD5.sb, xD5.sx] } ∧
  bitsOf (xfP.sOf (MUnit.cru 0) xD5.sx) 0 12 = 1 ∧ bitsOf (xfP.sOf (MUnit.cru 0) xD5.sx) 12 12 = 1 ∧
  BitVec.toNat (xfP.sOf (MUnit.cru 0) xD5.sa) % 64 = 0 ∧ BitVec.toNat (xfP.sOf (MUnit.cru 0) xD5.sa) + 64 ≤ 2 ^ 41 ∧
  BitVec.toNat (xfP.sOf (MUnit.cru 0) xD5.sb) % 64 = 0 ∧ BitVec.toNat (xfP.sOf (MUnit.cru 0) xD5.sb) + 64 ≤ 6291456 ∧
  xfP.flaskCheck (xfP.cru (↑0 : Nat)).mki.flask Right.read false (BitVec.toNat (xfP.sOf (MUnit.cru 0) xD5.sa)) 64 = none ∧
  xfP.lineHere 0 (BitVec.toNat (xfP.sOf (MUnit.cru 0) xD5.sa) / 64) cln1 ∧ Memory.wf xfP.mould = true ∧
  (0 < (↑0 : Nat) * 2 ^ 23 + BitVec.toNat (xfP.sOf (MUnit.cru 0) xD5.sb) ∨ (↑0 : Nat) * 2 ^ 23 + BitVec.toNat (xfP.sOf (MUnit.cru 0) xD5.sb) + 64 ≤ 0) ∧
  xfA.xqReady 0 xD5.g { s := [xD5.sa, xD5.sb, xD5.sx] } ∧ bitsOf (xfA.sOf (MUnit.cru 0) xD5.sx) 0 12 = 1 ∧
  bitsOf (xfA.sOf (MUnit.cru 0) xD5.sx) 12 12 = 1 ∧ BitVec.toNat (xfA.sOf (MUnit.cru 0) xD5.sa) % 64 = 0 ∧
  BitVec.toNat (xfA.sOf (MUnit.cru 0) xD5.sa) + 64 ≤ 2 ^ 41 ∧ BitVec.toNat (xfA.sOf (MUnit.cru 0) xD5.sb) % 64 = 0 ∧
  BitVec.toNat (xfA.sOf (MUnit.cru 0) xD5.sb) + 64 ≤ 6291456 ∧
  xfA.flaskCheck (xfA.cru (↑0 : Nat)).mki.flask Right.read false (BitVec.toNat (xfA.sOf (MUnit.cru 0) xD5.sa)) 64 = none ∧
  xfA.lineAway 0 (BitVec.toNat (xfA.sOf (MUnit.cru 0) xD5.sa) / 64) hl ∧
  xfP.flaskCheck (xfP.cru (↑0 : Nat)).mki.flask Right.write false (BitVec.toNat (xfP.sOf (MUnit.cru 0) xD5.sa)) 64 = none ∧
  xfP.storesFree 0 ∧ (cln1.st = CSt.d ∨ cln1.st = CSt.x) ∧
  xfA.flaskCheck (xfA.cru (↑0 : Nat)).mki.flask Right.write false (BitVec.toNat (xfA.sOf (MUnit.cru 0) xD5.sa)) 64 = none ∧
  xfA.storesFree 0 ∧ (xfA.cru (↑0 : Nat)).installs = true := by
  and_intros <;> decide +kernel

theorem witness_LeafAccess :
  (mC 6 2 4 1).rsv = 0 ∧ (mC 6 2 4 1).sh = 0 ∧ lf0.leafOf (↑0 : Nat) (lf0.sOf (MUnit.cru 0) (mC 6 2 4 1).base) = some sm0 ∧
  lf0.xqReady 0 (mC 6 2 4 1).g { s := [(mC 6 2 4 1).base, (mC 6 2 4 1).idx, (mC 6 2 4 1).d] } ∧ (mC 6 2 4 1).off = 1 ∧
  BitVec.toNat (lf0.sOf (MUnit.cru 0) (mC 6 2 4 1).idx) % 64 = 0 ∧ BitVec.toNat (lf0.sOf (MUnit.cru 0) (mC 6 2 4 1).d) % 64 = 0 ∧
  BitVec.toNat (lf0.sOf (MUnit.cru 0) (mC 6 2 4 1).d) + 64 ≤ 6291456 ∧
  BitVec.toNat (lf0.sOf (MUnit.cru 0) (mC 6 2 4 1).idx) + 64 ≤ 64 * sm0.size ∧
  ((if sm0.cur = true then sm0.leafB else sm0.leafA) + BitVec.toNat (lf0.sOf (MUnit.cru 0) (mC 6 2 4 1).idx)) % 64 = 0 ∧
  lf0.flaskCheck (lf0.cru (↑0 : Nat)).mki.flask Right.read false ((if sm0.cur = true then sm0.leafB else sm0.leafA) + BitVec.toNat (lf0.sOf (MUnit.cru 0) (mC 6 2 4 1).idx)) 64 = none ∧
  lf0.lineHere 0 (((if sm0.cur = true then sm0.leafB else sm0.leafA) + BitVec.toNat (lf0.sOf (MUnit.cru 0) (mC 6 2 4 1).idx)) / 64) cln1 ∧
  Memory.wf lf0.mould = true ∧
  (0 < (↑0 : Nat) * 2 ^ 23 + BitVec.toNat (lf0.sOf (MUnit.cru 0) (mC 6 2 4 1).d) ∨ (↑0 : Nat) * 2 ^ 23 + BitVec.toNat (lf0.sOf (MUnit.cru 0) (mC 6 2 4 1).d) + 64 ≤ 0) ∧
  lfA.leafOf (↑0 : Nat) (lfA.sOf (MUnit.cru 0) (mC 6 2 4 1).base) = some sm0 ∧
  lfA.xqReady 0 (mC 6 2 4 1).g { s := [(mC 6 2 4 1).base, (mC 6 2 4 1).idx, (mC 6 2 4 1).d] } ∧
  BitVec.toNat (lfA.sOf (MUnit.cru 0) (mC 6 2 4 1).idx) % 64 = 0 ∧ BitVec.toNat (lfA.sOf (MUnit.cru 0) (mC 6 2 4 1).d) % 64 = 0 ∧
  BitVec.toNat (lfA.sOf (MUnit.cru 0) (mC 6 2 4 1).d) + 64 ≤ 6291456 ∧
  BitVec.toNat (lfA.sOf (MUnit.cru 0) (mC 6 2 4 1).idx) + 64 ≤ 64 * sm0.size ∧
  ((if sm0.cur = true then sm0.leafB else sm0.leafA) + BitVec.toNat (lfA.sOf (MUnit.cru 0) (mC 6 2 4 1).idx)) % 64 = 0 ∧
  lfA.flaskCheck (lfA.cru (↑0 : Nat)).mki.flask Right.read false ((if sm0.cur = true then sm0.leafB else sm0.leafA) + BitVec.toNat (lfA.sOf (MUnit.cru 0) (mC 6 2 4 1).idx)) 64 = none ∧
  lfA.lineAway 0 (((if sm0.cur = true then sm0.leafB else sm0.leafA) + BitVec.toNat (lfA.sOf (MUnit.cru 0) (mC 6 2 4 1).idx)) / 64) hl ∧
  lf1.leafOf (↑0 : Nat) (lf1.sOf (MUnit.cru 0) (mC 6 2 4 1).base) = some sm1 ∧
  lf1.xqReady 0 (mC 6 2 4 1).g { s := [(mC 6 2 4 1).base, (mC 6 2 4 1).idx, (mC 6 2 4 1).d] } ∧
  BitVec.toNat (lf1.sOf (MUnit.cru 0) (mC 6 2 4 1).idx) % 64 = 0 ∧ BitVec.toNat (lf1.sOf (MUnit.cru 0) (mC 6 2 4 1).d) % 64 = 0 ∧
  BitVec.toNat (lf1.sOf (MUnit.cru 0) (mC 6 2 4 1).d) + 64 ≤ 6291456 ∧
  BitVec.toNat (lf1.sOf (MUnit.cru 0) (mC 6 2 4 1).idx) + 64 ≤ 64 * sm1.size ∧
  ((if sm1.cur = true then sm1.leafA else sm1.leafB) + BitVec.toNat (lf1.sOf (MUnit.cru 0) (mC 6 2 4 1).idx)) % 64 = 0 ∧
  lf1.flaskCheck (lf1.cru (↑0 : Nat)).mki.flask Right.read false ((if sm1.cur = true then sm1.leafA else sm1.leafB) + BitVec.toNat (lf1.sOf (MUnit.cru 0) (mC 6 2 4 1).idx)) 64 = none ∧
  lf1.lineHere 0 (((if sm1.cur = true then sm1.leafA else sm1.leafB) + BitVec.toNat (lf1.sOf (MUnit.cru 0) (mC 6 2 4 1).idx)) / 64) cln1 ∧
  Memory.wf lf1.mould = true ∧
  (0 < (↑0 : Nat) * 2 ^ 23 + BitVec.toNat (lf1.sOf (MUnit.cru 0) (mC 6 2 4 1).d) ∨ (↑0 : Nat) * 2 ^ 23 + BitVec.toNat (lf1.sOf (MUnit.cru 0) (mC 6 2 4 1).d) + 64 ≤ 0) ∧
  lfA1.leafOf (↑0 : Nat) (lfA1.sOf (MUnit.cru 0) (mC 6 2 4 1).base) = some sm1 ∧
  lfA1.xqReady 0 (mC 6 2 4 1).g { s := [(mC 6 2 4 1).base, (mC 6 2 4 1).idx, (mC 6 2 4 1).d] } ∧
  BitVec.toNat (lfA1.sOf (MUnit.cru 0) (mC 6 2 4 1).idx) % 64 = 0 ∧ BitVec.toNat (lfA1.sOf (MUnit.cru 0) (mC 6 2 4 1).d) % 64 = 0 ∧
  BitVec.toNat (lfA1.sOf (MUnit.cru 0) (mC 6 2 4 1).d) + 64 ≤ 6291456 ∧
  BitVec.toNat (lfA1.sOf (MUnit.cru 0) (mC 6 2 4 1).idx) + 64 ≤ 64 * sm1.size ∧
  ((if sm1.cur = true then sm1.leafA else sm1.leafB) + BitVec.toNat (lfA1.sOf (MUnit.cru 0) (mC 6 2 4 1).idx)) % 64 = 0 ∧
  lfA1.flaskCheck (lfA1.cru (↑0 : Nat)).mki.flask Right.read false ((if sm1.cur = true then sm1.leafA else sm1.leafB) + BitVec.toNat (lfA1.sOf (MUnit.cru 0) (mC 6 2 4 1).idx)) 64 = none ∧
  lfA1.lineAway 0 (((if sm1.cur = true then sm1.leafA else sm1.leafB) + BitVec.toNat (lfA1.sOf (MUnit.cru 0) (mC 6 2 4 1).idx)) / 64) hl ∧
  (((if sm1.cur = true then sm1.leafA else sm1.leafB) + BitVec.toNat (lf1.sOf (MUnit.cru 0) (mC 6 2 4 1).idx)) % 64 = 0 ∧ lf1.storesFree 0 ∧ lf1.flaskCheck (lf1.cru (↑0 : Nat)).mki.flask Right.write false ((if sm1.cur = true then sm1.leafA else sm1.leafB) + BitVec.toNat (lf1.sOf (MUnit.cru 0) (mC 6 2 4 1).idx)) 64 = none) ∧
  (cln1.st = CSt.d ∨ cln1.st = CSt.x) ∧
  (((if sm1.cur = true then sm1.leafA else sm1.leafB) + BitVec.toNat (lfA1.sOf (MUnit.cru 0) (mC 6 2 4 1).idx)) % 64 = 0 ∧ lfA1.storesFree 0 ∧ lfA1.flaskCheck (lfA1.cru (↑0 : Nat)).mki.flask Right.write false ((if sm1.cur = true then sm1.leafA else sm1.leafB) + BitVec.toNat (lfA1.sOf (MUnit.cru 0) (mC 6 2 4 1).idx)) 64 = none) ∧
  (lfA1.cru (↑0 : Nat)).installs = true ∧ (mC 7 2 0 0).rsv = 0 ∧ (mC 7 2 0 0).sh = 0 ∧
  lf0.leafOf (↑0 : Nat) (lf0.sOf (MUnit.cru 0) (mC 7 2 0 0).base) = some sm0 ∧
  lf0.xqReady 0 (mC 7 2 0 0).g { s := [(mC 7 2 0 0).base, (mC 7 2 0 0).d] } ∧ (mC 7 2 0 0).idx = 0 ∧ (mC 7 2 0 0).off = 0 ∧
  lfN.leafOf (↑0 : Nat) (lfN.sOf (MUnit.cru 0) (mC 6 2 4 1).base) = none ∧
  lfN.xqReady 0 (mC 6 2 4 1).g { s := [(mC 6 2 4 1).base, (mC 6 2 4 1).idx, (mC 6 2 4 1).d] } ∧ lfN.storesFree 0 ∧
  BitVec.toNat (lfN.sOf (MUnit.cru 0) (mC 6 2 4 1).idx) % 64 = 0 ∧ BitVec.toNat (lfN.sOf (MUnit.cru 0) (mC 6 2 4 1).d) % 64 = 0 ∧
  BitVec.toNat (lfN.sOf (MUnit.cru 0) (mC 6 2 4 1).d) + 64 ≤ 6291456 ∧
  lfN.leafOf (↑0 : Nat) (lfN.sOf (MUnit.cru 0) (mC 7 2 0 0).base) = none ∧
  lfN.xqReady 0 (mC 7 2 0 0).g { s := [(mC 7 2 0 0).base, (mC 7 2 0 0).d] } := by
  and_intros <;> decide +kernel

theorem witness_RegisterWrites :
  core0.plainWord Win.co 48 ∧ core0.accepts rc Win.co 48 = true ∧ core0.plainWord (Win.cr 3) 36 ∧
  core0.accepts rc (Win.cr 3) 36 = true ∧ hostOwn rc (BitVec.toNat (167772208 : Word)) = false ∧ core0.accepts rc Win.ft 4084 = true ∧
  core0.accepts (Requester.hd 3) (Win.ft, 16384).fst (Win.ft, 16384).snd = false ∧
  hostOwn rc (BitVec.toNat (2415919088 : Word)) = false ∧ hostOwn rc (BitVec.toNat (65538 : Word)) = false := by
  and_intros <;> decide +kernel

theorem witness_RwcWritesAreBuffered :
  run0.plainWord Win.co 4 ∧ run0.accepts rc Win.co 4 = true ∧ run0.tb.running = true ∧ core0.plainWord (Win.cr 3) 12 ∧
  core0.accepts rc (Win.cr 3) 12 = true ∧ core0.tb.running = false := by
  and_intros <;> decide +kernel

theorem witness_CancelAndRearm :
  canS.accepts rc Win.ft 4092 = true ∧ canS.accepts rc Win.ft 4088 = true ∧ canS.summary Win.ft = true ∧
  (canS.accepts rc Win.ld 4088 = false ∨ Page.base ≠ Page.base ∨ BitVec.getLsbD (2147483649 : Word) 0 = false ∨ canS.summary Win.ld = false) ∧
  (canS.accepts (Requester.hd 3) Win.ft 4092 = false ∨ Page.base ≠ Page.base ∨ BitVec.getLsbD (2147483649 : Word) 31 = false) := by
  and_intros <;> decide +kernel

theorem witness_InterruptOnRise :
  (∀ (x : Nat × Core), x ∈ canS.cores → x.snd.wfi = false) := by
  and_intros <;> decide +kernel

theorem witness_WideAccesses :
  ((match rc with | Requester.hd h => rqS.ioHeld | x => false) = false) ∧ reads rc (pageAddr (Win.cr 3) 16 Page.base).toNat = true ∧
  Requester.smbus ≠ rc ∧ reads rc (pageAddr (Win.cr 3) (16 + 4 * 1) Page.base).toNat = true ∧
  (rqS.req rc).rd = some { base := winBase (Win.cr 3) + 16, words := wr1 } ∧ tblFind wr1 1 = some (119, Page.base) ∧
  ((match rc with | Requester.hd h => core0.ioHeld | x => false) = false) ∧
  (Option.all (fun sh => sh.base != winBase (Win.cr 3) + 16 || (tblFind sh.words 1).isNone) (core0.req rc).rd = true) ∧
  hostOwn rc (BitVec.toNat (262145 : Word)) = false ∧
  (reads rc (BitVec.toNat (262145 : Word)) = false ∨ BitVec.toNat (262145 : Word) % 4 ≠ 0) ∧
  ((match Requester.hd 3 with | Requester.hd h => heldS.ioHeld | x => false) = true) ∧
  (∀ (i : Nat), i < 2 → winOf (winBase (Win.cr 3) + (16 + 4 * i)) = some (Win.cr 3, 16 + 4 * i) ∧ wideOf (Win.cr 3) (16 + 4 * i) = (16, 2) ∧ core0.accepts rc (Win.cr 3) (16 + 4 * i) = true) ∧
  (∀ (i : Nat), i < 2 → winOf (winBase (Win.cr 3) + (16 + 4 * i)) = some (Win.cr 3, 16 + 4 * i) ∧ wideOf (Win.cr 3) (16 + 4 * i) = (16, 2) ∧ rqS.accepts rc (Win.cr 3) (16 + 4 * i) = true) ∧
  rqS.plainWide (Win.cr 3) 16 ∧ (rqS.req rc).wr = some { base := winBase (Win.cr 3) + 16, words := [(0, 136, Page.tog)] } ∧
  core0.plainWide (Win.cr 3) 16 ∧ (Option.all (fun sh => sh.base != winBase (Win.cr 3) + 16) (core0.req rc).wr = true) ∧
  (∀ (i : Nat), i < 2 → winOf (winBase (Win.cr 3) + (24 + 4 * i)) = some (Win.cr 3, 24 + 4 * i) ∧ wideOf (Win.cr 3) (24 + 4 * i) = (24, 2) ∧ core0.accepts rc (Win.cr 3) (24 + 4 * i) = true) ∧
  core0.plainWide (Win.cr 3) 24 := by
  and_intros <;> decide +kernel

theorem witness_DevicesAndTestPorts :
  dvS.canRun (MUnit.core 0 0) fm0.g { } ∧ fm0.rsv = 0 ∧ dvS.addrOf (MUnit.core 0 0) fm0 < 2 ^ 32 ∧
  dvS.addrOf (MUnit.core 0 0) fm0 % 4 = 0 ∧ dvS.devStuck (dvS.addrOf (MUnit.core 0 0) fm0) = none ∧
  dvS.addrOf (MUnit.core 0 0) fm0 % 8 = 0 ∧ dvK.canRun (MUnit.core 0 0) fm0.g { } ∧ dvK.addrOf (MUnit.core 0 0) fm0 < 2 ^ 32 ∧
  dvK.addrOf (MUnit.core 0 0) fm0 % 4 = 0 ∧ dvK.devStuck (dvK.addrOf (MUnit.core 0 0) fm0) = some 2 ∧
  dvK.addrOf (MUnit.core 0 0) fm0 % 8 = 0 ∧ dvR.canRun (MUnit.core 0 0) fm0.g { } ∧ 2 ^ 32 ≤ dvR.addrOf (MUnit.core 0 0) fm0 ∧
  dvM.canRun (MUnit.core 0 0) fm0.g { } ∧ dvM.addrOf (MUnit.core 0 0) fm0 < 2 ^ 32 ∧ dvM.addrOf (MUnit.core 0 0) fm0 % 4 ≠ 0 ∧
  dvM.addrOf (MUnit.core 0 0) fm0 % 8 ≠ 0 ∧ (dvC 32).xqReady 0 fm0.g { s := [fm0.base, fm0.idx, fm0.d] } ∧
  (dvC 32).addrOf (MUnit.cru 0) fm0 < 2 ^ 32 ∧ (dvC 32).addrOf (MUnit.cru 0) fm0 % 4 = 0 ∧
  reads (Requester.cru 0) ((dvC 32).addrOf (MUnit.cru 0) fm0) = true ∧ (dvC 32).addrOf (MUnit.cru 0) fm0 = aCr (↑0 : Nat) 32 ∧
  hasCru (dvC 32).build (↑0 : Nat) = true ∧ ((dvC 32).cru (↑0 : Nat)).st ≠ CruSt.retired ∧ (dvC 32).addrOf (MUnit.cru 0) fm0 % 8 = 0 ∧
  (dvC 24).xqReady 0 fm0.g { s := [fm0.base, fm0.idx, fm0.d] } ∧ (dvC 24).addrOf (MUnit.cru 0) fm0 < 2 ^ 32 ∧
  (dvC 24).addrOf (MUnit.cru 0) fm0 % 8 = 0 ∧ reads (Requester.cru 0) ((dvC 24).addrOf (MUnit.cru 0) fm0) = true ∧
  (dvC 24).addrOf (MUnit.cru 0) fm0 = aCr (↑0 : Nat) 24 ∧ hasCru (dvC 24).build (↑0 : Nat) = true ∧
  ((dvC 24).cru (↑0 : Nat)).st ≠ CruSt.retired ∧ (dvC 1048576).xqReady 0 fm0.g { s := [fm0.base, fm0.idx, fm0.d] } ∧
  (dvC 1048576).addrOf (MUnit.cru 0) fm0 < 2 ^ 32 ∧ (dvC 1048576).addrOf (MUnit.cru 0) fm0 % 4 = 0 ∧
  reads (Requester.cru 0) ((dvC 1048576).addrOf (MUnit.cru 0) fm0) = false ∧ (dvC 1048576).addrOf (MUnit.cru 0) fm0 % 8 = 0 ∧
  dvCR.xqReady 0 fm0.g { s := [fm0.base, fm0.idx, fm0.d] } ∧ 2 ^ 32 ≤ dvCR.addrOf (MUnit.cru 0) fm0 ∧
  (dvC 33).xqReady 0 fm0.g { s := [fm0.base, fm0.idx, fm0.d] } ∧ (dvC 33).addrOf (MUnit.cru 0) fm0 < 2 ^ 32 ∧
  (dvC 33).addrOf (MUnit.cru 0) fm0 % 4 ≠ 0 ∧ (dvC 33).addrOf (MUnit.cru 0) fm0 % 8 ≠ 0 ∧ cru0.canDispatch (MUnit.cru 0) fm0.g { } ∧
  hasSite tapS.build (↑3 : Nat) = true ∧ tapS.trstLow = false ∧ (hasSite tapL.build (↑3 : Nat) = false ∨ tapL.trstLow = true) := by
  and_intros <;> decide +kernel

theorem witness_FrameEdgesAndHoldover :
  (tbS id).tb.now ≤ 1060000 ∧ (tbS id).pinsLive = true ∧ (tbS id).fld (aCo 0) 1 1 = 0 ∧ (tbS id).tb.holdover = false ∧
  (((tbS id).tb.lost || Option.all (fun e => decide (2 * (max 1060000 (e + (tbS id).period) - min 1060000 (e + (tbS id).period)) ≤ (tbS id).period)) (tbS id).tb.lastEdge) = false) ∧
  (tbS id).tb.now ≤ 1124999 ∧
  (((tbS id).tb.lost || Option.all (fun e => decide (2 * (max 1124999 (e + (tbS id).period) - min 1124999 (e + (tbS id).period)) ≤ (tbS id).period)) (tbS id).tb.lastEdge) = true) ∧
  (∀ (m : Nat × Nat), m ∈ (tbS id).tb.tagged → 1124999 < m.fst) ∧ state7_5.tb.now ≤ 1124999 ∧ state7_5.pinsLive = true ∧
  state7_5.fld (aCo 0) 1 1 = 0 ∧ state7_5.tb.holdover = false ∧
  ((state7_5.tb.lost || Option.all (fun e => decide (2 * (max 1124999 (e + state7_5.period) - min 1124999 (e + state7_5.period)) ≤ state7_5.period)) state7_5.tb.lastEdge) = true) ∧
  state7_5.tb.lost = false ∧ state7_5.tb.lastEdge = some 1000000 ∧
  100 * (max (1124999 - 1000000) state7_5.period - min (1124999 - 1000000) state7_5.period) ≤ state7_5.period ∧ state7_1.tb.now ≤ 1124999 ∧
  state7_1.pinsLive = true ∧ state7_1.fld (aCo 0) 1 1 = 0 ∧ state7_1.tb.holdover = false ∧
  ((state7_1.tb.lost || Option.all (fun e => decide (2 * (max 1124999 (e + state7_1.period) - min 1124999 (e + state7_1.period)) ≤ state7_1.period)) state7_1.tb.lastEdge) = true) ∧
  state7_1.tb.tagged = [(1000500, 5000125005)] ∧ state7_1.tb.timeValid = false ∧ state7_2.tb.now ≤ 1124999 ∧ state7_2.pinsLive = true ∧
  state7_2.fld (aCo 0) 1 1 = 0 ∧ state7_2.tb.holdover = false ∧
  ((state7_2.tb.lost || Option.all (fun e => decide (2 * (max 1124999 (e + state7_2.period) - min 1124999 (e + state7_2.period)) ≤ state7_2.period)) state7_2.tb.lastEdge) = true) ∧
  state7_2.tb.tagged = [(1000500, 5000125005)] ∧ state7_2.tb.timeValid = true ∧ state7_2.tb.corr = Correction.none ∧
  ((↑5000125005 : Int) - (↑(state7_2.tb.edgeTime + state7_2.period) : Int)).natAbs ≤ state7_2.fld (aCo 48) 0 20 ∧ state7_7.tb.lastEdge = some 1000000 ∧
  state7_7.tb.holdover = false ∧ state7_7.tb.lost = false ∧ state7_7.coursesRun = true ∧ (tbS id).tb.lastEdge = some 1000000 ∧
  (tbS id).tb.lost = false ∧ (tbS id).coursesRun = false ∧ state7_8.tb.lastEdge = some 1000000 ∧ state7_8.tb.holdover = true ∧
  state7_8.tb.genPassed = none ∧ state7_8.tb.armed = false ∧ state7_9.tb.lastEdge = some 1000000 ∧ state7_9.tb.holdover = true ∧
  state7_9.tb.genPassed = none ∧ state7_9.tb.armed = true ∧ state7_9.lastFrame = true ∧ tbA.tb.lastEdge = some 1000000 ∧ tbA.tb.holdover = true ∧
  tbA.tb.armed = true ∧ tbA.tb.genPassed.isSome = true ∧ tbA.tb.now ≤ 1127100 ∧ tbA.pinsLive = true ∧ tbA.fld (aCo 0) 1 1 = 0 ∧
  tbA.tb.lastReal = some 1002000 ∧ 100 * (max (1127100 - 1002000) tbA.period - min (1127100 - 1002000) tbA.period) ≤ tbA.period ∧
  (∀ (m : Nat × Nat), m ∈ tbA.tb.tagged → 1127100 < m.fst) ∧ tbB.tb.lastEdge = some 1000000 ∧ tbB.tb.now ≤ 1127100 ∧
  tbB.pinsLive = true ∧ tbB.fld (aCo 0) 1 1 = 0 ∧ tbB.tb.holdover = true ∧ tbB.tb.lastReal = some 1002000 ∧
  100 * (max (1127100 - 1002000) tbB.period - min (1127100 - 1002000) tbB.period) ≤ tbB.period ∧ tbB.tb.armed = false := by
  and_intros <;> decide +kernel

theorem witness_TimeMessagesAndControl :
  (tbS id).tb.now ≤ 1000001 ∧ (tbS id).pinsLive = true ∧ (todB 1).getD 0 0 = 90 ∧ (todB 1).getD 1 0 = 1 ∧ todValid (todB 1) = false ∧
  state7_10.tb.corr = Correction.halfRate 0 ∧ state7_10.ml.frozen = false ∧ state7_10.ml.last = none ∧ (↑1 : Nat) ≠ core0.active ∧
  (↑0 : Nat) = core0.active ∧ core0.tb.starting = false ∧ core0.tb.running = false ∧ BitVec.getLsbD (core0.reg (aCo 0)) 0 = false ∧
  BitVec.getLsbD (pageWrite Page.base (core0.reg (aCo 0)) 1 7) 0 = true ∧
  BitVec.getLsbD (pageWrite Page.base (core0.reg (aCo 0)) 1 7) 2 = false ∧
  BitVec.getLsbD (pageWrite Page.base (core0.reg (aCo 0)) 1 7) 1 = BitVec.getLsbD (core0.reg (aCo 0)) 1 ∧
  BitVec.getLsbD (pageWrite Page.base (core0.reg (aCo 0)) 5 7) 0 = true ∧
  BitVec.getLsbD (pageWrite Page.base (core0.reg (aCo 0)) 5 7) 2 = true ∧
  BitVec.getLsbD (pageWrite Page.base (core0.reg (aCo 0)) 5 7) 1 = BitVec.getLsbD (core0.reg (aCo 0)) 1 ∧ (↑0 : Nat) = run0.active ∧
  (run0.tb.starting || run0.tb.running) = true ∧
  BitVec.getLsbD (pageWrite Page.base (run0.reg (aCo 0)) 0 7) 1 = BitVec.getLsbD (run0.reg (aCo 0)) 1 ∧ run0.tb.running = true ∧
  run0.tb.holdover = false ∧ BitVec.getLsbD (run0.reg (aCo 0)) 1 = false ∧
  BitVec.getLsbD (pageWrite Page.base (run0.reg (aCo 0)) 2 7) 1 = true ∧ (↑0 : Nat) = state7_11.active ∧ state7_11.tb.running = true ∧
  BitVec.getLsbD (state7_11.reg (aCo 0)) 1 = true ∧ BitVec.getLsbD (pageWrite Page.base (state7_11.reg (aCo 0)) 1 7) 1 = false ∧
  todG.getD 0 0 = 90 ∧ todG.getD 1 0 = 1 ∧ todValid todG = true := by
  and_intros <;> decide +kernel

theorem witness_CourseBoundarySteps :
  due0.tb.due = true ∧ due0.inReset = false ∧ due0.fc.hbLost = false ∧ (core0.tb.due = false ∨ core0.inReset = true) ∧
  state8_1.tb.due = true ∧ state8_1.inReset = false ∧ state8_1.fc.hbLost = true ∧ (∀ (a : Access), a ∈ due0.outst → a.age + 1 < due0.deadCourses) ∧
  state8_2.tb.due = true ∧ state8_2.inReset = false ∧ state8_2.outst = [accD] ∧ state8_2.deadCourses ≤ accD.age + 1 ∧ isHostAid accD.aid = true ∧
  (duP ch0y).tb.due = true ∧ (duP ch0y).inReset = false ∧ (duP ch0y).takeover = none ∧ (duP ch0y).fld 131072 0 1 = 1 ∧
  (duP ch0y).charge (↑3 : Nat) (↑1 : Nat) = some ch0y ∧ ch0y.outcome = 0 ∧ ch0y.run = ChargeRun.started ∧
  (duP ch0y).course < ch0y.deadline ∧ (duP ch0x).tb.due = true ∧ (duP ch0x).inReset = false ∧ (duP ch0x).takeover = none ∧
  (duP ch0x).fld 131072 0 1 = 1 ∧ (duP ch0x).charge (↑3 : Nat) (↑1 : Nat) = some ch0x ∧ ch0x.outcome = 0 ∧
  ch0x.run = ChargeRun.started ∧ ch0x.deadline ≤ (duP ch0x).course ∧
  ((ch0x.attempt ≠ 0 ∨ ch0x.excused = true) ∧ ch0x.ext < 2 ∧ (duP ch0x).course < ch0x.bound + 2) ∧ (duP ch0).tb.due = true ∧
  (duP ch0).inReset = false ∧ (duP ch0).takeover = none ∧ (duP ch0).fld 131072 0 1 = 1 ∧
  (duP ch0).charge (↑3 : Nat) (↑1 : Nat) = some ch0 ∧ ch0.outcome = 0 ∧ ch0.run = ChargeRun.started ∧ ch0.deadline ≤ (duP ch0).course ∧
  (¬((ch0.attempt ≠ 0 ∨ ch0.excused = true) ∧ ch0.ext < 2 ∧ (duP ch0).course < ch0.bound + 2)) ∧
  ((duP ch0).cru ch0.cruc).st ≠ CruSt.failed ∧ duPf.tb.due = true ∧ duPf.inReset = false ∧ duPf.takeover = none ∧
  duPf.fld 131072 0 1 = 1 ∧ duPf.charge (↑3 : Nat) (↑1 : Nat) = some ch0z ∧ ch0z.outcome = 0 ∧ ch0z.run = ChargeRun.started ∧
  ch0z.deadline ≤ duPf.course ∧ (¬((ch0z.attempt ≠ 0 ∨ ch0z.excused = true) ∧ ch0z.ext < 2 ∧ duPf.course < ch0z.bound + 2)) ∧
  (duPf.cru ch0z.cruc).st = CruSt.failed ∧ duPr.tb.due = true ∧ duPr.inReset = false ∧ duPr.takeover = none ∧ duPr.fld 131072 0 1 = 1 ∧
  duPr.charge (↑3 : Nat) (↑1 : Nat) = some ch0z ∧ ch0z.deadline ≤ duPr.course ∧
  (¬((ch0z.attempt ≠ 0 ∨ ch0z.excused = true) ∧ ch0z.ext < 2 ∧ duPr.course < ch0z.bound + 2)) ∧
  (duPr.cru ch0z.cruc).st ≠ CruSt.failed ∧ (duPr.cru ch0z.cruc).charge = some ((↑3 : Nat), (↑1 : Nat)) ∧
  (duPr.cru ch0z.cruc).st = CruSt.running ∧ (duPr.cru ch0z.cruc).trap = none ∧ (duPr.cru ch0z.cruc).standbyBusy = false ∧
  state8_4.tb.due = true ∧ state8_4.inReset = false ∧ state8_4.fc.chill = true ∧ state8_4.fc.cleanLeft = 1 ∧ state8_4.fc.dirtyCourse = false ∧
  state8_4.fc.warn = false ∧ state8_4.fc.therm = false ∧
  (due0.fc.chill = false ∨ due0.fc.cleanLeft ≠ 1 ∨ due0.fc.dirtyCourse = true ∨ due0.fc.warn = true ∨ due0.fc.therm = true) ∧
  hand0.tb.due = true ∧ hand0.inReset = false ∧ hand0.takeover = none ∧ hand0.takeLate = none ∧
  (hand0.quoin hand0.active).handover = true ∧ hand0.beatsCount.successor = some 1 ∧ due0.takeover = none ∧ due0.takeLate = none ∧
  due0.beatsCount.successor = none ∧ hb0.tb.due = true ∧ hb0.inReset = false ∧ hb0.takeover = none ∧ hb0.takeLate = none ∧
  hb0.fc.hbLost = false ∧ hb0.fc.hbLate = false ∧ hb0.tb.unjudged = false ∧ hasE hb0.build hb0.active = true ∧ hb0.active < 4 ∧
  hb0.beatsCount.successor = none ∧ (hb0.quoin hb0.active).beats ≠ 15 ∧ hb0.missLimit ≤ (hb0.quoin hb0.active).missRun + 1 ∧
  hand0.fc.hbLost = false ∧ hand0.fc.hbLate = false ∧ fz0.tb.due = true ∧ fz0.inReset = false ∧ fz0.ml.frozen = true ∧
  fz0.freezeLimit ≤ fz0.ml.frozenCourses + 1 ∧ fz0.ml.missed ≠ 0 ∧ fz0.ml.heldClear = false ∧
  (due0.ml.frozen = false ∨ due0.ml.frozenCourses + 1 < due0.freezeLimit) := by
  and_intros <;> decide +kernel

theorem witness_CrucibleCommands :
  (cruS CruSt.idle).accepts rc (Win.cr (↑3 : Nat)) 4 = true ∧
  [(Instr.start rc 3, CruCmd.start), (Instr.stop rc 3, CruCmd.stop), (Instr.resume rc 3, CruCmd.resume), (Instr.abort rc 3, CruCmd.abort), (Instr.reset rc 3, CruCmd.reset), (Instr.standby rc 3, CruCmd.standby), (Instr.wake rc 3, CruCmd.wake), (Instr.retire rc 3, CruCmd.retire)][0]? = some (cmd8 0) ∧
  (¬((cruS CruSt.idle).isFw (Requester.hd 3) = true ∧ hasCru (cruS CruSt.idle).build (↑3 : Nat) = true ∧ (cruS CruSt.idle).inReset = false ∧ ((cruS CruSt.idle).cru (↑3 : Nat)).st ≠ CruSt.retired)) ∧
  (state8_5.isFw rc = true ∧ hasCru state8_5.build (↑3 : Nat) = true ∧ state8_5.inReset = false ∧ (state8_5.cru (↑3 : Nat)).st ≠ CruSt.retired) ∧
  ((state8_5.cru (↑3 : Nat)).trap.isSome = true ∧ ((state8_5.cru (↑3 : Nat)).st = CruSt.running ∨ (state8_5.cru (↑3 : Nat)).st = CruSt.stopping)) ∧
  ((cruS CruSt.idle).isFw rc = true ∧ hasCru (cruS CruSt.idle).build (↑3 : Nat) = true ∧ (cruS CruSt.idle).inReset = false ∧ ((cruS CruSt.idle).cru (↑3 : Nat)).st ≠ CruSt.retired) ∧
  (¬(((cruS CruSt.idle).cru (↑3 : Nat)).trap.isSome = true ∧ (((cruS CruSt.idle).cru (↑3 : Nat)).st = CruSt.running ∨ ((cruS CruSt.idle).cru (↑3 : Nat)).st = CruSt.stopping))) ∧
  (Instr.stop rc 3, CruCmd.stop).snd.accepted ((cruS CruSt.idle).cru (↑3 : Nat)).st = false ∧
  (state8_6.isFw rc = true ∧ hasCru state8_6.build (↑3 : Nat) = true ∧ state8_6.inReset = false ∧ (state8_6.cru (↑3 : Nat)).st ≠ CruSt.retired) ∧
  (¬((state8_6.cru (↑3 : Nat)).trap.isSome = true ∧ ((state8_6.cru (↑3 : Nat)).st = CruSt.running ∨ (state8_6.cru (↑3 : Nat)).st = CruSt.stopping))) ∧
  (state8_6.cru (↑3 : Nat)).standbyBusy = true ∧ (Instr.reset rc 3, CruCmd.reset).snd.accepted (state8_6.cru (↑3 : Nat)).st = true ∧
  ((cruS CruSt.idle).cru (↑3 : Nat)).standbyBusy = false ∧ ((cruS CruSt.idle).cru (↑3 : Nat)).st = CruSt.idle ∧
  (((cruS CruSt.idle).cru (↑3 : Nat)).st = CruSt.idle ∨ ((cruS CruSt.idle).cru (↑3 : Nat)).st = CruSt.standby ∨ ((cruS CruSt.idle).cru (↑3 : Nat)).st = CruSt.running ∨ ((cruS CruSt.idle).cru (↑3 : Nat)).st = CruSt.halted ∨ ((cruS CruSt.idle).cru (↑3 : Nat)).st = CruSt.trapped ∨ ((cruS CruSt.idle).cru (↑3 : Nat)).st = CruSt.failed) ∧
  (((cruS CruSt.idle).cru (↑3 : Nat)).st = CruSt.idle ∨ ((cruS CruSt.idle).cru (↑3 : Nat)).st = CruSt.standby ∨ ((cruS CruSt.idle).cru (↑3 : Nat)).st = CruSt.running ∨ ((cruS CruSt.idle).cru (↑3 : Nat)).st = CruSt.stopping ∨ ((cruS CruSt.idle).cru (↑3 : Nat)).st = CruSt.halted ∨ ((cruS CruSt.idle).cru (↑3 : Nat)).st = CruSt.trapped) ∧
  ((cruS CruSt.running).isFw rc = true ∧ hasCru (cruS CruSt.running).build (↑3 : Nat) = true ∧ (cruS CruSt.running).inReset = false ∧ ((cruS CruSt.running).cru (↑3 : Nat)).st ≠ CruSt.retired) ∧
  (¬(((cruS CruSt.running).cru (↑3 : Nat)).trap.isSome = true ∧ (((cruS CruSt.running).cru (↑3 : Nat)).st = CruSt.running ∨ ((cruS CruSt.running).cru (↑3 : Nat)).st = CruSt.stopping))) ∧
  ((cruS CruSt.running).cru (↑3 : Nat)).standbyBusy = false ∧ ((cruS CruSt.running).cru (↑3 : Nat)).st = CruSt.running ∧
  (((cruS CruSt.running).cru (↑3 : Nat)).st = CruSt.running ∨ ((cruS CruSt.running).cru (↑3 : Nat)).st = CruSt.stopping ∧ ((cruS CruSt.running).cru (↑3 : Nat)).stopBy ≠ StopBy.abort ∨ ((cruS CruSt.running).cru (↑3 : Nat)).st = CruSt.halted ∨ ((cruS CruSt.running).cru (↑3 : Nat)).st = CruSt.trapped) ∧
  ((cruS CruSt.halted).isFw rc = true ∧ hasCru (cruS CruSt.halted).build (↑3 : Nat) = true ∧ (cruS CruSt.halted).inReset = false ∧ ((cruS CruSt.halted).cru (↑3 : Nat)).st ≠ CruSt.retired) ∧
  (¬(((cruS CruSt.halted).cru (↑3 : Nat)).trap.isSome = true ∧ (((cruS CruSt.halted).cru (↑3 : Nat)).st = CruSt.running ∨ ((cruS CruSt.halted).cru (↑3 : Nat)).st = CruSt.stopping))) ∧
  ((cruS CruSt.halted).cru (↑3 : Nat)).standbyBusy = false ∧ ((cruS CruSt.halted).cru (↑3 : Nat)).st = CruSt.halted ∧
  ((cruS CruSt.failed).isFw rc = true ∧ hasCru (cruS CruSt.failed).build (↑3 : Nat) = true ∧ (cruS CruSt.failed).inReset = false ∧ ((cruS CruSt.failed).cru (↑3 : Nat)).st ≠ CruSt.retired) ∧
  (¬(((cruS CruSt.failed).cru (↑3 : Nat)).trap.isSome = true ∧ (((cruS CruSt.failed).cru (↑3 : Nat)).st = CruSt.running ∨ ((cruS CruSt.failed).cru (↑3 : Nat)).st = CruSt.stopping))) ∧
  ((cruS CruSt.failed).cru (↑3 : Nat)).standbyBusy = false ∧
  (((cruS CruSt.failed).cru (↑3 : Nat)).st = CruSt.idle ∨ ((cruS CruSt.failed).cru (↑3 : Nat)).st = CruSt.standby ∨ ((cruS CruSt.failed).cru (↑3 : Nat)).st = CruSt.running ∨ ((cruS CruSt.failed).cru (↑3 : Nat)).st = CruSt.halted ∨ ((cruS CruSt.failed).cru (↑3 : Nat)).st = CruSt.trapped ∨ ((cruS CruSt.failed).cru (↑3 : Nat)).st = CruSt.failed) ∧
  ((cruS CruSt.failed).cru (↑3 : Nat)).st = CruSt.failed ∧
  (((cruS CruSt.failed).cru (↑3 : Nat)).st = CruSt.failed ∨ ((cruS CruSt.failed).cru (↑3 : Nat)).st = CruSt.resetting) ∧
  ((cruS CruSt.standby).isFw rc = true ∧ hasCru (cruS CruSt.standby).build (↑3 : Nat) = true ∧ (cruS CruSt.standby).inReset = false ∧ ((cruS CruSt.standby).cru (↑3 : Nat)).st ≠ CruSt.retired) ∧
  (¬(((cruS CruSt.standby).cru (↑3 : Nat)).trap.isSome = true ∧ (((cruS CruSt.standby).cru (↑3 : Nat)).st = CruSt.running ∨ ((cruS CruSt.standby).cru (↑3 : Nat)).st = CruSt.stopping))) ∧
  ((cruS CruSt.standby).cru (↑3 : Nat)).standbyBusy = false ∧ ((cruS CruSt.standby).cru (↑3 : Nat)).st = CruSt.standby ∧
  (state8_7.isFw rc = true ∧ hasCru state8_7.build (↑3 : Nat) = true ∧ state8_7.inReset = false ∧ (state8_7.cru (↑3 : Nat)).st ≠ CruSt.retired) ∧
  (¬((state8_7.cru (↑3 : Nat)).trap.isSome = true ∧ ((state8_7.cru (↑3 : Nat)).st = CruSt.running ∨ (state8_7.cru (↑3 : Nat)).st = CruSt.stopping))) ∧
  (state8_7.cru (↑3 : Nat)).standbyBusy = false ∧ (state8_7.cru (↑3 : Nat)).st = CruSt.stopping ∧ (state8_7.cru (↑3 : Nat)).stopBy = StopBy.abort := by
  and_intros <;> decide +kernel

theorem witness_CrucibleTransitionsAndCharges :
  (state8_8.cru (↑3 : Nat)).st = CruSt.stopping ∧ (state8_8.cru (↑3 : Nat)).stopBy = StopBy.stop ∧ state8_8.cruQuiet (↑3 : Nat) = true ∧
  (state8_8.cru (↑3 : Nat)).trap = none ∧ (state8_9.cru (↑3 : Nat)).st = CruSt.stopping ∧ (state8_9.cru (↑3 : Nat)).stopBy = StopBy.stop ∧
  state8_9.cruQuiet (↑3 : Nat) = true ∧ (state8_9.cru (↑3 : Nat)).trap = some tI ∧ (state8_9.cru (↑3 : Nat)).held = [] ∧
  (state8_9.cru (↑3 : Nat)).charge = none ∧
  (((T3 CruSt.idle id).cru (↑3 : Nat)).st ≠ CruSt.stopping ∨ ((T3 CruSt.idle id).cru (↑3 : Nat)).stopBy ≠ StopBy.stop ∨ (T3 CruSt.idle id).cruQuiet (↑3 : Nat) = false) ∧
  (state8_10.cru (↑3 : Nat)).st = CruSt.stopping ∧ (state8_10.cru (↑3 : Nat)).stopBy = StopBy.abort ∧ state8_10.storesDone (↑3 : Nat) = true ∧
  (((T3 CruSt.idle id).cru (↑3 : Nat)).st ≠ CruSt.stopping ∨ ((T3 CruSt.idle id).cru (↑3 : Nat)).stopBy ≠ StopBy.abort ∨ (T3 CruSt.idle id).storesDone (↑3 : Nat) = false) ∧
  (rsC.cru (↑0 : Nat)).st = CruSt.resetting ∧ (rsC.cru (↑0 : Nat)).stopBy = StopBy.invalidate ∧
  (rsC.cru (↑0 : Nat)).cst ≠ CacheSt.invalidating ∧ (rsC.cru (↑0 : Nat)).cst ≠ CacheSt.draining ∧
  (rsF.cru (↑0 : Nat)).st = CruSt.resetting ∧ (rsF.cru (↑0 : Nat)).stopBy = StopBy.invalidateFailed ∧
  (rsF.cru (↑0 : Nat)).cst ≠ CacheSt.invalidating ∧ (rsF.cru (↑0 : Nat)).cst ≠ CacheSt.draining ∧
  ((T3 CruSt.idle id).cru (↑3 : Nat)).st = CruSt.idle ∧ (state8_11.cru (↑3 : Nat)).st = CruSt.standby ∧
  (state8_11.cru (↑3 : Nat)).standbyBusy = true ∧ (state8_11.cru (↑3 : Nat)).cache = [] ∧ (state8_11.cru (↑3 : Nat)).wb = [] ∧
  (state8_11.cru (↑3 : Nat)).range = none ∧ (state8_11.cru (↑3 : Nat)).held = [] ∧
  (((T3 CruSt.idle id).cru (↑3 : Nat)).st ≠ CruSt.standby ∨ ((T3 CruSt.idle id).cru (↑3 : Nat)).standbyBusy = false) ∧
  (state8_12.cru (↑3 : Nat)).st = CruSt.retiring ∧ (state8_12.cru (↑3 : Nat)).stopBy = StopBy.retire ∧ state8_12.storesDone (↑3 : Nat) = true ∧
  (state8_12.cru (↑3 : Nat)).cache = [] ∧ (state8_12.cru (↑3 : Nat)).wb = [] ∧ (state8_12.cru (↑3 : Nat)).miss = [] ∧
  (state8_12.cru (↑3 : Nat)).range = none ∧
  (((T3 CruSt.idle id).cru (↑3 : Nat)).st ≠ CruSt.retiring ∨ ((T3 CruSt.idle id).cru (↑3 : Nat)).stopBy ≠ StopBy.retire ∨ (T3 CruSt.idle id).storesDone (↑3 : Nat) = false) ∧
  ((T3 CruSt.selftest id).cru (↑3 : Nat)).st = CruSt.selftest ∧ (T3 CruSt.selftest id).fc.blkCru = [] ∧
  BitVec.getLsbD ((T3 CruSt.selftest id).reg (aFt 16408)) 2 = false ∧ ((T3 CruSt.idle id).cru (↑3 : Nat)).st ≠ CruSt.selftest ∧
  hasCru (T3 CruSt.running id).build (↑3 : Nat) = true ∧ ((T3 CruSt.running id).cru (↑3 : Nat)).st ≠ CruSt.retired ∧
  ((T3 CruSt.running id).cru (↑3 : Nat)).st ≠ CruSt.failed ∧ (T3 CruSt.running id).inReset = false ∧
  (T3 CruSt.running id).fc.blkCru = [] ∧
  BitVec.getLsbD ((T3 CruSt.running id).reg (aFt (16384 + 4 * (↑(failSrc fs1) : Nat)))) 2 = false ∧
  (hasCru (T3 CruSt.failed id).build (↑3 : Nat) = false ∨ ((T3 CruSt.failed id).cru (↑3 : Nat)).st = CruSt.retired ∨ ((T3 CruSt.failed id).cru (↑3 : Nat)).st = CruSt.failed) ∧
  (state8_13.cru (↑3 : Nat)).trap = some tI ∧ (state8_13.cru (↑3 : Nat)).st = CruSt.running ∧ state8_13.cruQuiet (↑3 : Nat) = true ∧
  (state8_13.cru (↑3 : Nat)).held = [] ∧ (state8_13.cru (↑3 : Nat)).charge = none ∧
  (((T3 CruSt.idle id).cru (↑3 : Nat)).trap = none ∨ (T3 CruSt.idle id).cruQuiet (↑3 : Nat) = false) ∧
  (chS.cru (↑3 : Nat)).st = CruSt.idle ∧ (chS.cru (↑3 : Nat)).charge = none ∧ (chS.cru (↑3 : Nat)).standbyBusy = false ∧
  (chS.cru (↑3 : Nat)).work = [(3, 1), (4, 2)] ∧ tblFind chS.pours 3 = some (po0 ch0) ∧ (po0 ch0).area + 64 * 1 < 2 ^ 64 ∧
  (((T3 CruSt.idle id).cru (↑3 : Nat)).st ≠ CruSt.idle ∨ ((T3 CruSt.idle id).cru (↑3 : Nat)).charge ≠ none ∨ ((T3 CruSt.idle id).cru (↑3 : Nat)).work = []) ∧
  (chT.cru (↑3 : Nat)).charge = some (3, 1) ∧ chT.charge 3 1 = some chF ∧ chF.run = ChargeRun.flushing 5 false ∧
  (false = true ∨ (chT.cru (↑3 : Nat)).range = none ∧ (chT.cru (↑3 : Nat)).cache = [] ∧ (chT.cru (↑3 : Nat)).wb = []) ∧
  ((T3 CruSt.idle id).cru (↑3 : Nat)).charge = none ∧ (↑3 : Nat) ∈ foS.fc.failReports ∧ foS.role (↑3 : Nat) = 1 ∧
  ¬(↑3 : Nat) ∈ (T3 CruSt.idle id).fc.failReports ∧ fs1 = CruFailure.tagParity 5 := by
  and_intros <;> decide +kernel

theorem witness_CommandsOfQueues :
  state9_1.consumes (↑21 : Nat) = false ∧ hq0.takesSlot (↑21 : Nat) ∧ cmdPlain (ca 0 0 0) 0 ∧ (ca 0 0 0).param0 = 0 ∧
  (ca 0 0 0).param1 = 0 ∧ (ca 0 0 0).response = 0 ∧ (ca 1 0 0).param0 ≠ 0 ∧ hq0.qLadle (↑21 : Nat) = 15 ∧
  BitVec.toNat (ca 5 4096 0 [1048576, 2097152]).param0 < 2 ^ 18 ∧ cmdPlain (ca 5 4096 0 [1048576, 2097152]) 2 ∧
  (ca 5 4096 0 [1048576, 2097152]).response = 0 ∧ 1 ≤ BitVec.toNat (ca 5 4096 0 [1048576, 2097152]).param1 ∧
  BitVec.toNat (ca 5 4096 0 [1048576, 2097152]).param1 ≤ 65536 ∧
  BitVec.toNat ((ca 5 4096 0 [1048576, 2097152]).payload.getD 0 0) % 4096 = 0 ∧
  BitVec.toNat ((ca 5 4096 0 [1048576, 2097152]).payload.getD 1 0) % 4096 = 0 ∧
  BitVec.toNat ((ca 5 4096 0 [1048576, 2097152]).payload.getD 0 0) < 2 ^ 41 ∧
  BitVec.toNat ((ca 5 4096 0 [1048576, 2097152]).payload.getD 1 0) < 2 ^ 41 ∧
  disjoint (BitVec.toNat ((ca 5 4096 0 [1048576, 2097152]).payload.getD 0 0)) (BitVec.toNat ((ca 5 4096 0 [1048576, 2097152]).payload.getD 1 0)) (64 * BitVec.toNat (ca 5 4096 0 [1048576, 2097152]).param1) = true ∧
  ((hq0.stream (BitVec.toNat (ca 5 4096 0 [1048576, 2097152]).param0)).st = StreamSt.free ∨ (hq0.stream (BitVec.toNat (ca 5 4096 0 [1048576, 2097152]).param0)).owner = (↑21 : Nat) / 16 ∧ (hq0.stream (BitVec.toNat (ca 5 4096 0 [1048576, 2097152]).param0)).st = StreamSt.ready) ∧
  hq0.holdsRange ((↑21 : Nat) / 16) (BitVec.toNat ((ca 5 4096 0 [1048576, 2097152]).payload.getD 0 0)) (64 * BitVec.toNat (ca 5 4096 0 [1048576, 2097152]).param1) = true ∧
  hq0.holdsRange ((↑21 : Nat) / 16) (BitVec.toNat ((ca 5 4096 0 [1048576, 2097152]).payload.getD 1 0)) (64 * BitVec.toNat (ca 5 4096 0 [1048576, 2097152]).param1) = true ∧
  BitVec.toNat (ca 112 0 0).param0 < 2 ^ 18 ∧ cmdPlain (ca 112 0 0) 0 ∧ (ca 112 0 0).param1 = 0 ∧ (ca 112 0 0).response = 0 ∧
  (hq0.stream (BitVec.toNat (ca 112 0 0).param0)).st = StreamSt.ready ∧
  (hq0.stream (BitVec.toNat (ca 112 0 0).param0)).owner = (↑21 : Nat) / 16 ∧
  (hq0.stream (BitVec.toNat (ca 112 0 0).param0)).st ≠ StreamSt.free ∧ hq0.respCheck ((↑21 : Nat) / 16) (ca 112 0 0) 64 = 0 ∧
  descOk (ca 0 0 0 poD).payload = true ∧ (ca 0 0 0 poD).param0 = 0 ∧ (ca 0 0 0 poD).param1 = 0 ∧ (ca 0 0 0 poD).response = 0 ∧
  hq0.freePour = some 0 ∧ (∀ (k : Nat), k ∈ poX.streams → hq0.streamCheck ((↑21 : Nat) / 16) k false false = 0) ∧
  hq0.pourFlaskOk ((↑21 : Nat) / 16) poX = true ∧ hq0.pourHolds ((↑21 : Nat) / 16) poX = true ∧
  ceilDiv (ceilDiv poX.count poX.cadence) poX.chargeMax ≤ 256 ∧ hqP.takesSlot (↑21 : Nat) ∧ hqP.qLadle (↑21 : Nat) = 15 ∧
  BitVec.toNat (ca 0 0 0).param0 < 4096 ∧ hqP.pourOf ((↑21 : Nat) / 16) (BitVec.toNat (ca 0 0 0).param0) = some poX ∧
  hqP.respCheck ((↑21 : Nat) / 16) (ca 0 0 0) 128 = 0 ∧ cmdPlain (ca 2 5242880 0) 0 ∧ BitVec.toNat (ca 2 5242880 0).param0 < 4096 ∧
  tblFind hq0.flasks (BitVec.toNat (ca 2 5242880 0).param0) = some flask2 ∧ 5242880 = BitVec.toNat (ca 2 5242880 0).param1 ∧
  (ca 2 5242880 0).response = 0 ∧ BitVec.toNat (ca 2 5242880 0).param0 ≠ 0 ∧ hq0.grantedRange ((↑21 : Nat) / 16) 5242880 256 = true ∧
  flask2.owner = (↑21 : Nat) / 16 ∧ (∀ (j : Nat), j < 4 → (hq0.homeUp (5242880 / 64 + j)).isSome = true) ∧ hqK.takesSlot (↑21 : Nat) ∧
  hqK.qLadle (↑21 : Nat) = 15 ∧ tblFind hqK.flasks (BitVec.toNat (ca 2 5242880 0).param0) = some state9_2 ∧
  hqK.grantedRange ((↑21 : Nat) / 16) 5242880 256 = true ∧ state9_2.owner ≠ (↑21 : Nat) / 16 ∧ cmdPlain (ca 2 0 0) 0 ∧
  BitVec.toNat (ca 2 0 0).param0 < 4096 ∧ tblFind hq0.flasks (BitVec.toNat (ca 2 0 0).param0) = some flask2 ∧ (ca 2 0 0).param1 = 0 ∧
  (ca 2 0 0).response = 0 ∧ (∀ (e : Nat × Pour), e ∈ hq0.pours → e.snd.flask ≠ BitVec.toNat (ca 2 0 0).param0) ∧
  cmdPlain (ca 2 0 5242880) 0 ∧ BitVec.toNat (ca 2 0 5242880).param0 < 4096 ∧
  tblFind hq0.flasks (BitVec.toNat (ca 2 0 5242880).param0) = some flask2 ∧ (ca 2 0 5242880).param1 = 0 ∧
  hq0.respCheck ((↑21 : Nat) / 16) (ca 2 0 5242880) 256 = 0 ∧ hqL.takesSlot (↑21 : Nat) ∧ hqL.qLadle (↑21 : Nat) < 8 ∧
  (hqL.ladleCheck ((↑21 : Nat) / 16) ((↑21 : Nat) / 256 * 8 + hqL.qLadle (↑21 : Nat)) ladC).toOption = some ladX ∧
  hqL.servedBy ((↑21 : Nat) / 256 * 8 + hqL.qLadle (↑21 : Nat)) = some 0 ∧
  ((match hqL.ladleCheck ((↑21 : Nat) / 16) ((↑21 : Nat) / 256 * 8 + hqL.qLadle (↑21 : Nat)) state9_3 with | .error k => k == 33 | .ok _ => false) = true) ∧
  8 ≤ hq0.qLadle (↑21 : Nat) ∧ hqL.qLadle (↑21 : Nat) < 15 := by
  and_intros <;> decide +kernel

theorem witness_QueueConsumptionAndControl :
  heldQ.ioHeld = true ∧ hqD.ioHeld = false ∧ ((hqD.hq (↑21 : Nat)).st = QSt.disabled ∨ (hqD.hq (↑21 : Nat)).st = QSt.disabling) ∧
  hq0.ioHeld = false ∧ (hq0.hq (↑21 : Nat)).st ≠ QSt.disabled ∧ (hq0.hq (↑21 : Nat)).st ≠ QSt.disabling ∧
  BitVec.toNat (5 : Word) ≤ (hq0.hq (↑21 : Nat)).sqDb ∧ (hq0.hq (↑21 : Nat)).sqDb < BitVec.toNat (22 : Word) ∧
  BitVec.toNat (22 : Word) ≤ (hq0.hq (↑21 : Nat)).sqHead + 2 ^ hq0.sqLog (↑21 : Nat) ∧
  (hq0.hq (↑21 : Nat)).sqDb < BitVec.toNat (23 : Word) ∧
  (hq0.hq (↑21 : Nat)).sqHead + 2 ^ hq0.sqLog (↑21 : Nat) < BitVec.toNat (23 : Word) ∧ hqC.ioHeld = false ∧
  (hqC.hq (↑21 : Nat)).cqHead < BitVec.toNat (3 : Word) ∧ BitVec.toNat (3 : Word) ≤ (hqC.hq (↑21 : Nat)).cqTail ∧
  (BitVec.toNat (5 : Word) ≤ (hqC.hq (↑21 : Nat)).cqHead ∨ (hqC.hq (↑21 : Nat)).cqTail < BitVec.toNat (5 : Word)) ∧
  (hqR 7).consumes (↑21 : Nat) = true ∧ ((hqR 7).hq (↑21 : Nat)).retries = 0 ∧
  tblFind ((hqR 7).hq (↑21 : Nat)).entries (((hqR 7).hq (↑21 : Nat)).sqHead + 1) = none ∧
  (hqR 7).ownGot (↑21 : Nat) ((hqR 7).slotLine (↑21 : Nat) (((hqR 7).hq (↑21 : Nat)).sqHead + 1) + 1) = OwnRead.ok (lnN 7) ∧
  (hqR 7).ownGot (↑21 : Nat) ((hqR 7).slotLine (↑21 : Nat) (((hqR 7).hq (↑21 : Nat)).sqHead + 1)) = OwnRead.ok 11259375 ∧
  BitVec.toNat (lineWord (lnN 7) 7) = ((hqR 7).hq (↑21 : Nat)).sqHead + 1 ∧ (hqR 6).consumes (↑21 : Nat) = true ∧
  ((hqR 6).hq (↑21 : Nat)).retries = 0 ∧ tblFind ((hqR 6).hq (↑21 : Nat)).entries (((hqR 6).hq (↑21 : Nat)).sqHead + 1) = none ∧
  (hqR 6).ownGot (↑21 : Nat) ((hqR 6).slotLine (↑21 : Nat) (((hqR 6).hq (↑21 : Nat)).sqHead + 1) + 1) = OwnRead.ok (lnN 6) ∧
  BitVec.toNat (lineWord (lnN 6) 7) ≠ ((hqR 6).hq (↑21 : Nat)).sqHead + 1 ∧ hq0.consumes (↑21 : Nat) = true ∧
  (hq0.hq (↑21 : Nat)).retries = 0 ∧ tblFind (hq0.hq (↑21 : Nat)).entries ((hq0.hq (↑21 : Nat)).sqHead + 1) = none ∧
  tblFind (hq0.hq (↑21 : Nat)).reads (hq0.slotLine (↑21 : Nat) ((hq0.hq (↑21 : Nat)).sqHead + 1) + 1) = none ∧
  (hq0.homeUp (hq0.slotLine (↑21 : Nat) ((hq0.hq (↑21 : Nat)).sqHead + 1) + 1)).isSome = true ∧
  ((hqRR 3).hq (↑21 : Nat)).st = QSt.running ∧ ((hqRR 3).hq (↑21 : Nat)).retries ≠ 0 ∧ ((hqRR 3).hq (↑21 : Nat)).reread = true ∧
  (hqRR 3).onHold = false ∧
  (hqRR 3).ownGot (↑21 : Nat) ((hqRR 3).slotLine (↑21 : Nat) (((hqRR 3).hq (↑21 : Nat)).sqHead + 1) + 1) = OwnRead.ok (lnN 6) ∧
  BitVec.toNat (lineWord (lnN 6) 7) ≠ ((hqRR 3).hq (↑21 : Nat)).sqHead + 1 ∧ ((hqRR 3).hq (↑21 : Nat)).retries ≠ 4 ∧
  ((hqRR 4).hq (↑21 : Nat)).st = QSt.running ∧ ((hqRR 4).hq (↑21 : Nat)).retries ≠ 0 ∧ ((hqRR 4).hq (↑21 : Nat)).reread = true ∧
  (hqRR 4).onHold = false ∧
  (hqRR 4).ownGot (↑21 : Nat) ((hqRR 4).slotLine (↑21 : Nat) (((hqRR 4).hq (↑21 : Nat)).sqHead + 1) + 1) = OwnRead.ok (lnN 6) ∧
  BitVec.toNat (lineWord (lnN 6) 7) ≠ ((hqRR 4).hq (↑21 : Nat)).sqHead + 1 ∧ ((hqRR 4).hq (↑21 : Nat)).retries = 4 ∧
  hqT.onHold = false ∧ tblFind (hqT.hq (↑21 : Nat)).entries ((hqT.hq (↑21 : Nat)).sqHead + 1) = some jeT ∧ jeT.st = JSt.taken ∧
  tblFind (hqC.hq (↑21 : Nat)).entries ((hqC.hq (↑21 : Nat)).cqTail + 1) = some jeD ∧ jeD.st = JSt.done ∧
  (hqC.hq (↑21 : Nat)).cqTail + 1 ≤ (hqC.hq (↑21 : Nat)).cqHead + 2 ^ hqC.cqLog (↑21 : Nat) ∧ (hqC.hq (↑21 : Nat)).st ≠ QSt.suspended ∧
  hqC.onHold = false ∧ hqD.qWriter (Requester.hd 1) ((↑21 : Nat) / 16) = true ∧ (hqD.hq (↑21 : Nat)).st = QSt.disabled ∧
  ((hqD.qLadle (↑21 : Nat) < 8 ∨ hqD.qLadle (↑21 : Nat) = 15) ∧ 4 ≤ hqD.sqLog (↑21 : Nat) ∧ hqD.sqLog (↑21 : Nat) ≤ 12 ∧ 4 ≤ hqD.cqLog (↑21 : Nat) ∧ hqD.cqLog (↑21 : Nat) ≤ 12 ∧ hqD.grantedRange ((↑21 : Nat) / 16) (hqD.sqBase (↑21 : Nat)) (128 * 2 ^ hqD.sqLog (↑21 : Nat)) = true ∧ hqD.grantedRange ((↑21 : Nat) / 16) (hqD.cqBase (↑21 : Nat)) (64 * 2 ^ hqD.cqLog (↑21 : Nat)) = true) ∧
  (hqD.hd ((↑21 : Nat) / 16)).order = [] ∧ (ordS [4] hqD).qWriter (Requester.hd 1) ((↑21 : Nat) / 16) = true ∧
  ((ordS [4] hqD).hq (↑21 : Nat)).st = QSt.disabled ∧
  (((ordS [4] hqD).qLadle (↑21 : Nat) < 8 ∨ (ordS [4] hqD).qLadle (↑21 : Nat) = 15) ∧ 4 ≤ (ordS [4] hqD).sqLog (↑21 : Nat) ∧ (ordS [4] hqD).sqLog (↑21 : Nat) ≤ 12 ∧ 4 ≤ (ordS [4] hqD).cqLog (↑21 : Nat) ∧ (ordS [4] hqD).cqLog (↑21 : Nat) ≤ 12 ∧ (ordS [4] hqD).grantedRange ((↑21 : Nat) / 16) ((ordS [4] hqD).sqBase (↑21 : Nat)) (128 * 2 ^ (ordS [4] hqD).sqLog (↑21 : Nat)) = true ∧ (ordS [4] hqD).grantedRange ((↑21 : Nat) / 16) ((ordS [4] hqD).cqBase (↑21 : Nat)) (64 * 2 ^ (ordS [4] hqD).cqLog (↑21 : Nat)) = true) ∧
  ((ordS [4] hqD).hd ((↑21 : Nat) / 16)).order.getLast? = some 4 ∧ hqD2.qWriter (Requester.hd 1) ((↑21 : Nat) / 16) = true ∧
  (hqD2.hq (↑21 : Nat)).st = QSt.disabled ∧
  (¬((hqD2.qLadle (↑21 : Nat) < 8 ∨ hqD2.qLadle (↑21 : Nat) = 15) ∧ 4 ≤ hqD2.sqLog (↑21 : Nat) ∧ hqD2.sqLog (↑21 : Nat) ≤ 12 ∧ 4 ≤ hqD2.cqLog (↑21 : Nat) ∧ hqD2.cqLog (↑21 : Nat) ≤ 12 ∧ hqD2.grantedRange ((↑21 : Nat) / 16) (hqD2.sqBase (↑21 : Nat)) (128 * 2 ^ hqD2.sqLog (↑21 : Nat)) = true ∧ hqD2.grantedRange ((↑21 : Nat) / 16) (hqD2.cqBase (↑21 : Nat)) (64 * 2 ^ hqD2.cqLog (↑21 : Nat)) = true)) ∧
  hqC.qWriter (Requester.hd 1) ((↑21 : Nat) / 16) = true ∧ (hqC.hq (↑21 : Nat)).st ≠ QSt.disabled ∧
  ((hqC.hq (↑21 : Nat)).st = QSt.running ∨ (hqC.hq (↑21 : Nat)).st = QSt.stopped) ∧
  hqS.qWriter (Requester.hd 1) ((↑21 : Nat) / 16) = true ∧ (hqS.hq (↑21 : Nat)).st = QSt.stopped ∧
  hqS.isHeld [28, 29] (↑21 : Nat) = false ∧ (hqD.hq (↑21 : Nat)).st ≠ QSt.running ∧ (hqD.hq (↑21 : Nat)).st ≠ QSt.stopped ∧
  hqU.qWriter (Requester.hd 1) ((↑21 : Nat) / 16) = true ∧ (hqU.hq (↑21 : Nat)).st = QSt.suspended ∧
  (hqU.hd ((↑21 : Nat) / 16)).order = [] ∧ (ordS [4] hqU).qWriter (Requester.hd 1) ((↑21 : Nat) / 16) = true ∧
  ((ordS [4] hqU).hq (↑21 : Nat)).st ≠ QSt.stopped ∧
  (((ordS [4] hqU).hq (↑21 : Nat)).st ≠ QSt.suspended ∨ ((ordS [4] hqU).hd ((↑21 : Nat) / 16)).order ≠ []) ∧
  hqD.qWriter (Requester.hd 5) ((↑21 : Nat) / 16) = false ∧ hqD.qWriter (Requester.hd 5) (↑1 : Nat) = false ∧ ntS.ioHeld = false ∧
  (ntS.hd (↑1 : Nat)).nqHead < BitVec.toNat (5 : Word) ∧ BitVec.toNat (5 : Word) = (ntS.hd (↑1 : Nat)).nqTail ∧
  (ntS.hd (↑1 : Nat)).nqHead < BitVec.toNat (4 : Word) ∧ BitVec.toNat (4 : Word) < (ntS.hd (↑1 : Nat)).nqTail ∧
  (ntS.ioHeld = true ∨ BitVec.toNat (3 : Word) ≤ (ntS.hd (↑1 : Nat)).nqHead ∨ (ntS.hd (↑1 : Nat)).nqTail < BitVec.toNat (3 : Word)) ∧
  (ntS.hd (↑1 : Nat)).notices = state9b_1 :: state9b_2 ∧ ntS.fld (nqReg (↑1 : Nat) 1032) 8 1 = 1 ∧ (ntS.hd (↑1 : Nat)).order = [] ∧
  ntS.onHold = false ∧ (ntS.hd (↑1 : Nat)).nqTail + 1 ≤ (ntS.hd (↑1 : Nat)).nqHead + 2 ^ ntS.fld (nqReg (↑1 : Nat) 1032) 0 4 ∧
  hq0.qWriter (Requester.hd 1) (↑1 : Nat) = true ∧ bitAt (hq0.reg (nqReg (↑1 : Nat) 1032)) 8 = false ∧
  (bitAt (pageWrite Page.base (hq0.reg (nqReg (↑1 : Nat) 1032)) 83886340 4278190351) 8 = true → 4 ≤ bitsOf (pageWrite Page.base (hq0.reg (nqReg (↑1 : Nat) 1032)) 83886340 4278190351) 0 4 ∧ bitsOf (pageWrite Page.base (hq0.reg (nqReg (↑1 : Nat) 1032)) 83886340 4278190351) 0 4 ≤ 12) ∧
  bitAt (pageWrite Page.base (hq0.reg (nqReg (↑1 : Nat) 1032)) 83886339 4278190351) 8 = true ∧
  (bitsOf (pageWrite Page.base (hq0.reg (nqReg (↑1 : Nat) 1032)) 83886339 4278190351) 0 4 < 4 ∨ 12 < bitsOf (pageWrite Page.base (hq0.reg (nqReg (↑1 : Nat) 1032)) 83886339 4278190351) 0 4) ∧
  ntS.qWriter (Requester.hd 1) (↑1 : Nat) = true ∧ bitAt (ntS.reg (nqReg (↑1 : Nat) 1032)) 8 = true ∧
  (4 ≤ bitsOf (ntS.reg (nqReg (↑1 : Nat) 1032)) 0 4 ∧ bitsOf (ntS.reg (nqReg (↑1 : Nat) 1032)) 0 4 ≤ 12) := by
  and_intros <;> decide +kernel

theorem witness_LadlesMoveLines :
  ((core0.ladle (↑2 : Nat)).opened = false ∨ core0.onHold = true ∨ (core0.ladle (↑2 : Nat)).budget = some 0 ∨ (core0.ladle (↑2 : Nat)).out = true ∨ (core0.ladle (↑2 : Nat)).testing = true ∨ core0.isHeld [30, 31] (↑2 : Nat) = true) ∧
  (¬(((ldS id).ladle (↑2 : Nat)).opened = false ∨ (ldS id).onHold = true ∨ ((ldS id).ladle (↑2 : Nat)).budget = some 0 ∨ ((ldS id).ladle (↑2 : Nat)).out = true ∨ ((ldS id).ladle (↑2 : Nat)).testing = true ∨ (ldS id).isHeld [30, 31] (↑2 : Nat) = true)) ∧
  ((ldS id).ladle (↑2 : Nat)).descs = [dsc0] ∧ dsc0.next ≤ dsc0.lastLine ∧ dStart dsc0.w ≤ (ldS id).course ∧
  BitVec.getLsbD dsc0.done (dsc0.fragOf dsc0.next) = false ∧ (ldS id).stillHolds dsc0.hd (blockOf (64 * dsc0.next)) = true ∧
  dsc0.op = 1 ∧ (ldS id).mayIssue dsc0.hd = true ∧ (ldS id).nextTag dsc0.hd = some 0 ∧
  (¬((nomay.ladle (↑2 : Nat)).opened = false ∨ nomay.onHold = true ∨ (nomay.ladle (↑2 : Nat)).budget = some 0 ∨ (nomay.ladle (↑2 : Nat)).out = true ∨ (nomay.ladle (↑2 : Nat)).testing = true ∨ nomay.isHeld [30, 31] (↑2 : Nat) = true)) ∧
  (nomay.ladle (↑2 : Nat)).descs = [dsc0] ∧ dStart dsc0.w ≤ nomay.course ∧ nomay.stillHolds dsc0.hd (blockOf (64 * dsc0.next)) = true ∧
  nomay.mayIssue dsc0.hd = false ∧
  (¬(((ldS id dsc2).ladle (↑2 : Nat)).opened = false ∨ (ldS id dsc2).onHold = true ∨ ((ldS id dsc2).ladle (↑2 : Nat)).budget = some 0 ∨ ((ldS id dsc2).ladle (↑2 : Nat)).out = true ∨ ((ldS id dsc2).ladle (↑2 : Nat)).testing = true ∨ (ldS id dsc2).isHeld [30, 31] (↑2 : Nat) = true)) ∧
  ((ldS id dsc2).ladle (↑2 : Nat)).descs = [dsc2] ∧ dsc2.next ≤ dsc2.lastLine ∧ dStart dsc2.w ≤ (ldS id dsc2).course ∧
  BitVec.getLsbD dsc2.done (dsc2.fragOf dsc2.next) = false ∧ (ldS id dsc2).stillHolds dsc2.hd (blockOf (64 * dsc2.next)) = true ∧
  (ldS id dsc2).homeUp dsc2.next = some hl2 ∧ (ldS id dsc2).hasCredit (aidLadle (↑2 : Nat)) hl2 = true ∧ dsc2.op = 2 ∧
  (ldS id dsc2).mayIssue dsc2.hd = true ∧
  (¬(((ldS id dsc5).ladle (↑2 : Nat)).opened = false ∨ (ldS id dsc5).onHold = true ∨ ((ldS id dsc5).ladle (↑2 : Nat)).budget = some 0 ∨ ((ldS id dsc5).ladle (↑2 : Nat)).out = true ∨ ((ldS id dsc5).ladle (↑2 : Nat)).testing = true ∨ (ldS id dsc5).isHeld [30, 31] (↑2 : Nat) = true)) ∧
  ((ldS id dsc5).ladle (↑2 : Nat)).descs = [dsc5] ∧ dsc5.next ≤ dsc5.lastLine ∧ dStart dsc5.w ≤ (ldS id dsc5).course ∧
  BitVec.getLsbD dsc5.done (dsc5.fragOf dsc5.next) = false ∧ (ldS id dsc5).stillHolds dsc5.hd (blockOf (64 * dsc5.next)) = true ∧
  (ldS id dsc5).homeUp dsc5.next = some hl2 ∧ (ldS id dsc5).hasCredit (aidLadle (↑2 : Nat)) hl2 = true ∧ dsc5.op = 5 ∧
  (ldF.ladle (↑2 : Nat)).descs = [dsc1] ∧ (↑0 : Nat) < dsc1.frags ∧ BitVec.getLsbD dsc1.done (↑0 : Nat) = false ∧
  (∀ (k : Nat), k ∈ dsc1.fragLines (↑0 : Nat) → k < dsc1.next) ∧ (∀ (r : LReq), r ∈ dsc1.reqs → r.frag ≠ (↑0 : Nat)) ∧
  mapSet dsc1.done (↑0 : Nat) = dsc1.all ∧ (dsc1.op ≠ 2 ∨ dOrdered dsc1.w = false) ∧
  tblFind (ldF.hq dsc1.q).entries dsc1.seq = some jeA ∧ jeA.st = JSt.accepted ∧ (ldFp.ladle (↑2 : Nat)).descs = [dscF] ∧
  (↑0 : Nat) < dscF.frags ∧ BitVec.getLsbD dscF.done (↑0 : Nat) = false ∧
  (∀ (k : Nat), k ∈ dscF.fragLines (↑0 : Nat) → k < dscF.next) ∧ (∀ (r : LReq), r ∈ dscF.reqs → r.frag ≠ (↑0 : Nat)) ∧
  mapSet dscF.done (↑0 : Nat) = dscF.all ∧ (dscF.op ≠ 2 ∨ dOrdered dscF.w = false) ∧
  tblFind (ldFp.hq dscF.q).entries dscF.seq = some jeA ∧ dscF.op = 2 ∧ BitVec.getLsbD dscF.fail (↑0 : Nat) = true ∧
  BitVec.getLsbD dscF.noMark (↑0 : Nat) = false ∧ dscF.unsent = [16386] ∧ dscF.fragOf 16386 = (↑0 : Nat) ∧
  (ldFp.gate (dscF.hd / 16)).up = true ∧ mDc.aid = aidLadle (↑2 : Nat) ∧ ((ldS id dscO).ladle (↑2 : Nat)).descs = [dscO] ∧
  dscO.op = 2 ∧ dscO.reqs = [lrq2] ∧ lrq2.ph = LPhase.reads [mDc.tag] [] ∧ lrq2.off < 64 ∧ lrq2.len ≤ 64 ∧
  (ldS id dscO).stillHolds dscO.hd (blockOf (64 * lrq2.line)) = true ∧ mDc.poison = false ∧ (ldS id dscO).mayIssue dscO.hd = true ∧
  state9b_3.aid = aidLadle (↑2 : Nat) ∧ lrq2.ph = LPhase.reads [state9b_3.tag] [] ∧ state9b_3.poison = true ∧ (↑2 : Nat) ∈ ldB.fc.blkLd ∧
  ¬(↑2 : Nat) ∈ ldF.fc.blkLd ∧ (ldTs.ladle (↑2 : Nat)).testing = true ∧ (ldF.ladle (↑2 : Nat)).testing = false ∧
  tblFind ((ldH htgD).gate (↑0 : Nat)).tags 5 = some htgD ∧ ((ldH htgD).gate (↑0 : Nat)).ideBad = [] ∧
  (htgD.left.isSome = true ∨ htgD.discard = true) ∧ tblFind ((ldH htg).gate (↑0 : Nat)).tags 5 = some htg ∧
  ((ldH htg).gate (↑0 : Nat)).ideBad = [] ∧ htg.left = none ∧ htg.discard = false ∧ htg.ladle = (↑2 : Nat) ∧
  ((ldH htg).ladle (↑2 : Nat)).descs = [dsc3] ∧ dsc3.hd = htg.hd ∧ dsc3.op = 1 ∧ dsc3.onTag 5 = some lrq ∧ dsc3.reqs = [lrq] ∧
  (ldH htg).stillHolds dsc3.hd (blockOf (64 * lrq.line)) = true ∧ (ldH htg).homeUp lrq.line = some hl2 ∧
  (ldH htg).hasCredit (aidLadle (↑2 : Nat)) hl2 = true ∧ htgD.left = none ∧ tblFind ((ldH htg).gate (↑0 : Nat)).tags 6 = none ∧
  (¬(((ldS id lateD).ladle (↑2 : Nat)).opened = false ∨ (ldS id lateD).onHold = true ∨ ((ldS id lateD).ladle (↑2 : Nat)).budget = some 0 ∨ ((ldS id lateD).ladle (↑2 : Nat)).out = true ∨ ((ldS id lateD).ladle (↑2 : Nat)).testing = true ∨ (ldS id lateD).isHeld [30, 31] (↑2 : Nat) = true)) ∧
  ((ldS id lateD).ladle (↑2 : Nat)).descs = [lateD] ∧ lateD.next ≤ lateD.lastLine ∧ (ldS id lateD).course < dStart lateD.w := by
  and_intros <;> decide +kernel

theorem witness_RequestsAtTheHome :
  hmI.homeOf m0.line = some (kH, slH) ∧ hmI.homeQuiet kH ∧ hmI.dead.contains m0.aid = false ∧ m0.aid < 384 ∧ m0.resv = false ∧
  hmI.unheld m0 = false ∧ (hmI.ks kH).homeSt slH = HomeSt.hi ∧ hmI.homeHit kH slH = true ∧
  ((hmI.ks kH).freeWay (dirSet slH)).isSome = true ∧ isCruAid m0.aid = true ∧ hmI.rshare m0.line = false ∧ hmI.ordered m0 MsgKind.rds ∧
  hmI.ordered m0 MsgKind.rdx ∧ hmI.ordered m0 MsgKind.rdc ∧ hmI.plainLine kH slH ∧ (hmI.homeValue kH slH).snd = false ∧
  m0.poison = false ∧ hmI.ordered m0 MsgKind.wrp ∧ hmI.ordered m0 MsgKind.ram ∧ state10_1.homeOf m0.line = some (kH, slH) ∧
  state10_1.homeQuiet kH ∧ state10_1.dead.contains m0.aid = false ∧ state10_1.unheld m0 = false ∧ (state10_1.ks kH).homeSt slH = HomeSt.hi ∧
  state10_1.homeHit kH slH = true ∧ state10_1.rshare m0.line = true ∧ (∀ (e : Nat × DirEnt), e ∈ (state10_1.ks kH).dir → e.fst / 64 ≠ slH / 64) ∧
  (state10_1.ks kH).regionsUsed (slH / 64) < 8 ∧ state10_1.ordered m0 MsgKind.rds ∧ hmI.ordered m0 MsgKind.wrf ∧
  state10_2.homeOf m0.line = some (kH, slH) ∧ state10_2.homeQuiet kH ∧ state10_2.dead.contains m0.aid = false ∧ state10_2.unheld m0 = false ∧
  (state10_2.ks kH).homeSt slH = HomeSt.hs none v03 ∧ state10_2.invTargets none v03 m0.aid false ≠ [] ∧ state10_2.ordered m0 MsgKind.rdx ∧
  state10_2.ordered m0 MsgKind.wrf ∧ (dirS (DirSt.hs none v00)).homeOf m0.line = some (kH, slH) ∧ (dirS (DirSt.hs none v00)).homeQuiet kH ∧
  (dirS (DirSt.hs none v00)).dead.contains m0.aid = false ∧ (dirS (DirSt.hs none v00)).unheld m0 = false ∧
  ((dirS (DirSt.hs none v00)).ks kH).homeSt slH = HomeSt.hs none v00 ∧
  (dirS (DirSt.hs none v00)).invTargets none v00 m0.aid false = [] ∧ (none = some m0.aid ∨ vecHas v00 m0.aid = true) ∧
  (dirS (DirSt.hs none v00)).ordered m0 MsgKind.upg ∧ (dirS (DirSt.hs (some 0) v00)).homeOf m0.line = some (kH, slH) ∧
  (dirS (DirSt.hs (some 0) v00)).homeQuiet kH ∧ (dirS (DirSt.hs (some 0) v00)).dead.contains m0.aid = false ∧
  (dirS (DirSt.hs (some 0) v00)).unheld m0 = false ∧ ((dirS (DirSt.hs (some 0) v00)).ks kH).homeSt slH = HomeSt.hs (some 0) v00 ∧
  some 0 = some m0.aid ∧ (dirS (DirSt.hs (some 0) v00)).ordered m0 MsgKind.evc ∧ (dirS (DirSt.he 3)).homeOf m0.line = some (kH, slH) ∧
  (dirS (DirSt.he 3)).homeQuiet kH ∧ (dirS (DirSt.he 3)).dead.contains m0.aid = false ∧ (dirS (DirSt.he 3)).unheld m0 = false ∧
  ((dirS (DirSt.he 3)).ks kH).homeSt slH = HomeSt.he 3 ∧ 3 ≠ m0.aid ∧ (dirS (DirSt.he 3)).dead.contains 3 = false ∧
  (dirS (DirSt.he 3)).ordered m0 MsgKind.rds ∧ (dirS (DirSt.he 3)).ordered m0 MsgKind.rdx ∧
  (dirS (DirSt.he 3)).ordered m0 MsgKind.upg ∧ (dirS (DirSt.he 3)).ordered m0 MsgKind.rdc ∧
  (dirS (DirSt.he 3)).ordered m0 MsgKind.wrf ∧ (dirS (DirSt.he 3)).ordered m0 MsgKind.wrp ∧
  (dirS (DirSt.he 3)).ordered m0 MsgKind.ram ∧ (hmI.ks kH).homeSt slH ≠ HomeSt.he m0.aid ∧ hmI.ordered m0 MsgKind.wbd ∧
  hmI.ordered m0 MsgKind.wbk ∧ (dirS (DirSt.he 0)).homeOf m0.line = some (kH, slH) ∧ (dirS (DirSt.he 0)).homeQuiet kH ∧
  (dirS (DirSt.he 0)).dead.contains m0.aid = false ∧ (dirS (DirSt.he 0)).unheld m0 = false ∧
  ((dirS (DirSt.he 0)).ks kH).homeSt slH = HomeSt.he m0.aid ∧ (dirS (DirSt.he 0)).ordered m0 MsgKind.wbd ∧
  (dirS (DirSt.he 0)).plainLine kH slH ∧ (dirS (DirSt.he 0)).ordered m0 MsgKind.wbk ∧ (dirS (DirSt.he 0)).ordered m0 MsgKind.evc ∧
  state10_3.homeOf m0.line = some (kH, slH) ∧ state10_3.homeQuiet kH ∧ state10_3.dead.contains m0.aid = false ∧ state10_3.unheld m0 = false ∧
  ¬state10_3.ordered m0 MsgKind.rds := by
  and_intros <;> decide +kernel

theorem witness_AnswersAtTheHome :
  (txS tx0).homeOf (ackM AckState.i).line = some (kH, slH) ∧ (txS tx0).homeOpen kH tx0 ∧
  (txS tx0).dead.contains (ackM AckState.i).aid = false ∧ (ackM AckState.i).aid = 0 ∧ tx0.sla = slH ∧
  tx0.line = (ackM AckState.i).line ∧ tx0.waitsFor 0 ∧ tx0.kind = TxKind.client ∧ tx0.phase = TxPhase.main ∧ tx0.gone = false ∧
  (txS tx0).dead.contains tx0.req.aid = false ∧ (ackM AckState.i).ok = true ∧ (ackM AckState.i).dat = false ∧
  tx0.req.kind = MsgKind.rdx ∧ tx0.snp = some MsgKind.snpFwdX ∧ (ackM AckState.i).ack = AckState.i ∧
  (txS tx0s).homeOf (ackM AckState.s).line = some (kH, slH) ∧ (txS tx0s).homeOpen kH tx0s ∧
  (txS tx0s).dead.contains (ackM AckState.s).aid = false ∧ (ackM AckState.s).aid = 0 ∧ tx0s.sla = slH ∧
  tx0s.line = (ackM AckState.s).line ∧ tx0s.waitsFor 0 ∧ tx0s.kind = TxKind.client ∧ tx0s.phase = TxPhase.main ∧ tx0s.gone = false ∧
  (txS tx0s).dead.contains tx0s.req.aid = false ∧ (ackM AckState.s).ok = true ∧ (ackM AckState.s).dat = false ∧
  tx0s.req.kind = MsgKind.rds ∧ tx0s.snp = some MsgKind.snpFwdS ∧ ((txS tx0s).ks kH).homeSt slH = HomeSt.he 0 ∧ 0 ≠ tx0s.req.aid ∧
  ((ackM AckState.s).ack = AckState.s ∨ (ackM AckState.s).ack = AckState.l) ∧
  (txS tx0e).homeOf (ackM AckState.i).line = some (kH, slH) ∧ (txS tx0e).homeOpen kH tx0e ∧
  (txS tx0e).dead.contains (ackM AckState.i).aid = false ∧ tx0e.sla = slH ∧ tx0e.line = (ackM AckState.i).line ∧ tx0e.waitsFor 0 ∧
  tx0e.kind = TxKind.evict ∧ tx0e.phase = TxPhase.main ∧ tx0e.leave = none ∧
  (txS tx0).homeOf (ackM AckState.wbp).line = some (kH, slH) ∧ (txS tx0).dead.contains (ackM AckState.wbp).aid = false ∧
  (ackM AckState.wbp).aid = 0 ∧ tx0.line = (ackM AckState.wbp).line ∧ (ackM AckState.wbp).ack = AckState.wbp ∧
  (txS tx1).homeOf (ackM AckState.x).line = some (kH, slH) ∧ (txS tx1).homeOpen kH tx1 ∧
  (txS tx1).dead.contains (ackM AckState.x).aid = false ∧ (ackM AckState.x).aid = 0 ∧ tx1.sla = slH ∧
  tx1.line = (ackM AckState.x).line ∧ tx1.waitsFor 0 ∧ tx1.kind = TxKind.reclaim ∧ tx1.phase = TxPhase.tagq ∧
  (ackM AckState.x).ack = AckState.x ∧ ¬0 ∈ ((txS tx1).ks kH).tagFail ∧ (txS tx1).homeOf (ackM AckState.d).line = some (kH, slH) ∧
  (txS tx1).dead.contains (ackM AckState.d).aid = false ∧ (ackM AckState.d).aid = 0 ∧ tx1.line = (ackM AckState.d).line ∧
  (ackM AckState.d).ack ≠ AckState.x ∧ (txS tx1).plainLine kH slH ∧ (↑2 : Nat) = kH ∧ (txS tx0).ordered (ackM AckState.i) MsgKind.rdx ∧
  (List.find? (fun r => r.snd.snd.aid == rgM.aid && r.snd.snd.tag == rgM.tag && r.snd.snd.line == rgM.line) (rgS.ks rgM.home).resv = some rg0) ∧
  (swS.ks (↑2 : Nat)).sweeping = true ∧ (swS.ks (↑2 : Nat)).sweepLeft = false ∧ (swS.ks (↑2 : Nat)).nextSweep = [] ∧
  (∀ (e : Nat × Cru), e ∈ swS.crus → e.snd.st ≠ CruSt.resetting) ∧ (hmI.ks (↑2 : Nat)).sweeping = false := by
  and_intros <;> decide +kernel

theorem witness_SnoopsAndResponses :
  (snS CSt.d).cruStill snM.aid ∧ (∀ (g : Msg), g ∈ (snS CSt.d).net → g.aid = snM.aid → grantOf g.kind = AckState.i) ∧
  ((fun t => tblFind (t.cru snM.aid).cache snM.line) (snS CSt.d) = some clD) ∧ 0 ≠ snM.line ∧ clD.st = CSt.d ∧
  ¬cacheIndex snM.line ∈ ((snS CSt.d).cru snM.aid).tagBad ∧ (129, clS).fst / 64 = snM.line / 64 ∧ (129, clS).snd.st = CSt.s ∧
  (∀ (e : Nat × CLine), e ∈ ((snS CSt.d).cru snM.aid).cache → e.fst = 0 → 0 / 64 = snM.line / 64 → e.snd.st ≠ CSt.s) ∧
  state10_5.cruStill snM.aid ∧ (∀ (g : Msg), g ∈ state10_5.net → g.aid = snM.aid → grantOf g.kind = AckState.i) ∧
  ((fun t => tblFind (t.cru snM.aid).cache snM.line) state10_5 = none) ∧ isCruAid snM.aid = true ∧ hasCru state10_6.build snM.aid = true ∧
  cacheIndex snM.line ∈ (state10_6.cru snM.aid).tagBad ∧ (state10_6.cru snM.aid).st ≠ CruSt.off ∧ (state10_6.cru snM.aid).st = CruSt.failed ∧
  hasCru state10_7.build snM.aid = true ∧ (state10_7.cru snM.aid).st ≠ CruSt.failed ∧ (state10_7.cru snM.aid).cst = CacheSt.invalidating ∧
  state10_8.cruStill rqM.aid ∧ (state10_8.cru rqM.aid).st = CruSt.running ∧
  (List.find? (fun a => a.aid == rqM.aid && a.tag == rqM.tag) state10_8.outst = some acR) ∧ acR.wb = false ∧ isCruAid rqM.aid = true ∧
  (state10_9.cru rqM.aid).st = CruSt.running ∧ (state10_9.cru rqM.aid).xq = [] ∧ (state10_9.cru rqM.aid).miss = [] ∧
  (state10_9.cru rqM.aid).range = none ∧ (state10_9.cru rqM.aid).snps = [] ∧
  (List.find? (fun a => a.aid == rqM.aid && a.tag == rqM.tag) state10_9.outst = some acW) ∧ acW.wb = true ∧
  (state10_10.cru rqM.aid).st = CruSt.running ∧ (state10_10.cru rqM.aid).xq = [] ∧ (state10_10.cru rqM.aid).wb = [] ∧
  (state10_10.cru rqM.aid).range = none ∧ (state10_10.cru rqM.aid).snps = [] ∧ (state10_10.cru rqM.aid).miss = [(rqM.line, msE)] ∧
  msE.tag = rqM.tag ∧ msE.got = none ∧ msE.err = false ∧ tblFind (state10_10.cru rqM.aid).cache rqM.line = some clS ∧ 0 ≠ rqM.line ∧
  (state10_11.cru rqM.aid).st = CruSt.running ∧ (state10_11.cru rqM.aid).xq = [] ∧ (state10_11.cru rqM.aid).wb = [] ∧
  (state10_11.cru rqM.aid).range = none ∧ (state10_11.cru rqM.aid).snps = [] ∧ (state10_11.cru rqM.aid).miss = [(rqM.line, msE)] ∧
  msE.noInst = false ∧ msE.fetch = false ∧ tblFind (state10_11.cru rqM.aid).cache rqM.line = none ∧
  (state10_11.cru rqM.aid).fillWay rqM.line 0 = some (0, none) ∧ isCoreAid rqMc.aid = true ∧
  ((coW (CoreWait.cond qI 9)).core (rqMc.aid - 192)).wait = CoreWait.cond qI rqMc.tag ∧
  ((coW (CoreWait.load qI 9)).core (rqMc.aid - 192)).wait = CoreWait.load qI rqMc.tag ∧ rqMc.poison = false ∧
  isHostAid rqMh.aid = true ∧ rqMs.aid = aidSet ∧ tblFind (rdSet.hq 21).reads 128 = some ownRd9 ∧ ownRd9.tag = rqMs.tag ∧
  ownRd9.got = none := by
  and_intros <;> decide +kernel

theorem witness_HostMemory :
  hmN.hostAddr hA = some hA ∧ hmN.hostServed (↑hA.hd : Nat) ∧ hmN.homeOf (hostLine hA) = some (kH, slH) ∧ hmN.homeQuiet kH ∧
  hmN.hasCredit (aidHd (↑hA.hd : Nat)) kH = true ∧ hmN.holds (↑hA.hd : Nat) (blockOf (64 * hostLine hA)) = false ∧
  hmI.hostAddr hA = some hA ∧ hmI.hostServed (↑hA.hd : Nat) ∧ hmI.homeOf (hostLine hA) = some (kH, slH) ∧ hmI.homeQuiet kH ∧
  hmI.hasCredit (aidHd (↑hA.hd : Nat)) kH = true ∧ hmI.holds (↑hA.hd : Nat) (blockOf (64 * hostLine hA)) = true ∧
  (hmI.ks kH).homeSt slH = HomeSt.hi ∧ hmI.homeHit kH slH = true ∧ hmI.flit68 hA.hd = false ∧
  ((hmI.ks kH).freeWay (dirSet slH)).isSome = true ∧ hA.mv = Meta.a ∧ (hmI.homeValue kH slH).snd = false ∧ hA.poison = false ∧
  hmI.plainLine kH slH ∧ hmI.hostAddr hS = some hS ∧ hmI.hostServed (↑hS.hd : Nat) ∧ hmI.homeOf (hostLine hS) = some (kH, slH) ∧
  hmI.hasCredit (aidHd (↑hS.hd : Nat)) kH = true ∧ hmI.holds (↑hS.hd : Nat) (blockOf (64 * hostLine hS)) = true ∧
  hmI.flit68 hS.hd = false ∧ hS.mv = Meta.s ∧ hmI.rshare (hostLine hS) = false ∧ hmI.hostAddr hI = some hI ∧
  hmI.hostServed (↑hI.hd : Nat) ∧ hmI.homeOf (hostLine hI) = some (kH, slH) ∧ hmI.hasCredit (aidHd (↑hI.hd : Nat)) kH = true ∧
  hmI.holds (↑hI.hd : Nat) (blockOf (64 * hostLine hI)) = true ∧ (hI.mv = Meta.i ∨ hmI.flit68 hI.hd = true) ∧
  (dirS (DirSt.hs none v05)).hostAddr hI = some hI ∧ (dirS (DirSt.hs none v05)).hostServed (↑hI.hd : Nat) ∧
  (dirS (DirSt.hs none v05)).homeOf (hostLine hI) = some (kH, slH) ∧ (dirS (DirSt.hs none v05)).homeQuiet kH ∧
  (dirS (DirSt.hs none v05)).hasCredit (aidHd (↑hI.hd : Nat)) kH = true ∧
  (dirS (DirSt.hs none v05)).holds (↑hI.hd : Nat) (blockOf (64 * hostLine hI)) = true ∧
  ((dirS (DirSt.hs none v05)).ks kH).homeSt slH = HomeSt.hs none v05 ∧ vecHas v05 (aidHd (↑hI.hd : Nat)) = true ∧
  (dirS (DirSt.hs none v05)).invTargets none v05 (aidHd (↑hI.hd : Nat)) false = [] ∧ (dirS (DirSt.he 261)).hostAddr hA = some hA ∧
  (dirS (DirSt.he 261)).hostServed (↑hA.hd : Nat) ∧ (dirS (DirSt.he 261)).homeOf (hostLine hA) = some (kH, slH) ∧
  (dirS (DirSt.he 261)).homeQuiet kH ∧ (dirS (DirSt.he 261)).hasCredit (aidHd (↑hA.hd : Nat)) kH = true ∧
  (dirS (DirSt.he 261)).holds (↑hA.hd : Nat) (blockOf (64 * hostLine hA)) = true ∧
  ((dirS (DirSt.he 261)).ks kH).homeSt slH = HomeSt.he (aidHd (↑hA.hd : Nat)) ∧ (dirS (DirSt.he 261)).flit68 hA.hd = false ∧
  (dirS (DirSt.he 261)).plainLine kH slH ∧ (dirS (DirSt.he 261)).hostAddr hI = some hI ∧
  (dirS (DirSt.he 261)).hostServed (↑hI.hd : Nat) ∧ (dirS (DirSt.he 261)).homeOf (hostLine hI) = some (kH, slH) ∧
  (dirS (DirSt.he 261)).hasCredit (aidHd (↑hI.hd : Nat)) kH = true ∧
  (dirS (DirSt.he 261)).holds (↑hI.hd : Nat) (blockOf (64 * hostLine hI)) = true ∧
  ((dirS (DirSt.he 261)).ks kH).homeSt slH = HomeSt.he (aidHd (↑hI.hd : Nat)) ∧ (dirS (DirSt.he 261)).flit68 hI.hd = false ∧
  hI.mv = Meta.i ∧ (txT txHx).hostAddr hI = some hI ∧ (txT txHx).hostServed (↑hI.hd : Nat) ∧
  (txT txHx).homeOf (hostLine hI) = some (kH, slH) ∧ (txT txHx).homeOpen kH txHx ∧ txHx.sla = slH ∧ txHx.line = hostLine hI ∧
  txHx.waitsFor (aidHd (↑hI.hd : Nat)) ∧ txHx.kind = TxKind.client ∧ txHx.phase = TxPhase.main ∧ txHx.gone = false ∧ txHx.fwd = false ∧
  txHx.dirty = none ∧ txHx.mem = some ((txT txHx).homeValue kH slH) ∧ txHx.req.aid < 72 ∧
  (txT txHx).dead.contains txHx.req.aid = false ∧ txHx.wbKind = none ∧
  ((txT txHx).ks kH).homeSt slH = HomeSt.he (aidHd (↑hI.hd : Nat)) ∧ hI.dirty = false ∧ txHx.req.kind = MsgKind.rdx ∧
  (txT txHs).hostAddr hI = some hI ∧ (txT txHs).hostServed (↑hI.hd : Nat) ∧ (txT txHs).homeOf (hostLine hI) = some (kH, slH) ∧
  (txT txHs).homeOpen kH txHs ∧ txHs.sla = slH ∧ txHs.line = hostLine hI ∧ txHs.waitsFor (aidHd (↑hI.hd : Nat)) ∧
  txHs.kind = TxKind.client ∧ txHs.phase = TxPhase.main ∧ txHs.gone = false ∧ txHs.fwd = false ∧ txHs.dirty = none ∧
  txHs.mem = some ((txT txHs).homeValue kH slH) ∧ txHs.req.aid < 72 ∧ (txT txHs).dead.contains txHs.req.aid = false ∧
  txHs.wbKind = none ∧ ((txT txHs).ks kH).homeSt slH = HomeSt.he (aidHd (↑hI.hd : Nat)) ∧ txHs.req.kind = MsgKind.rds ∧
  (txT txHc).hostAddr hI = some hI ∧ (txT txHc).hostServed (↑hI.hd : Nat) ∧ (txT txHc).homeOf (hostLine hI) = some (kH, slH) ∧
  (txT txHc).homeOpen kH txHc ∧ txHc.sla = slH ∧ txHc.line = hostLine hI ∧ txHc.waitsFor (aidHd (↑hI.hd : Nat)) ∧
  txHc.kind = TxKind.client ∧ txHc.phase = TxPhase.main ∧ txHc.gone = false ∧ txHc.fwd = false ∧ txHc.dirty = none ∧
  txHc.mem = some ((txT txHc).homeValue kH slH) ∧ txHc.req.aid < 72 ∧ (txT txHc).dead.contains txHc.req.aid = false ∧
  txHc.wbKind = none ∧ ((txT txHc).ks kH).homeSt slH = HomeSt.he (aidHd (↑hI.hd : Nat)) ∧ txHc.req.kind = MsgKind.rdc ∧
  txHc.req.resv = false ∧ txHc.reclaimed = false ∧ (txT txHx).hostAddr hD = some hD ∧ (txT txHx).hostServed (↑hD.hd : Nat) ∧
  (txT txHx).homeOf (hostLine hD) = some (kH, slH) ∧ txHx.line = hostLine hD ∧ txHx.waitsFor (aidHd (↑hD.hd : Nat)) ∧ hD.dirty = true ∧
  (txT txHx).flit68 hI.hd = false ∧ (txT txHx).awaits (↑kF : Nat) (aidHd (↑hI.hd : Nat)) (hostLine hI) = true ∧
  ((txT txHx).gate ((↑hI.hd : Nat) / 16)).retraining = false ∧ ((txT txHx).gate ((↑hI.hd : Nat) / 16)).up = true ∧
  (hmI.awaits (↑kF : Nat) (aidHd (↑hI.hd : Nat)) (hostLine hI) = false ∨ (hmI.gate ((↑hI.hd : Nat) / 16)).retraining = true) ∧
  (txS tx0).hostAddr hI = some hI ∧ (txS tx0).hostServed (↑hI.hd : Nat) ∧ (txS tx0).homeOf (hostLine hI) = some (kH, slH) ∧
  (txS tx0).awaits (↑kF : Nat) (↑0 : Nat) (hostLine hI) = true ∧ hasCru (txS tx0).build (↑0 : Nat) = true ∧
  ((txS tx0).cru (↑0 : Nat)).st ≠ CruSt.retired ∧ ((txS tx0).cru (↑0 : Nat)).st ≠ CruSt.failed ∧ (txS tx0).fc.blkCru = [] ∧
  BitVec.getLsbD ((txS tx0).reg (aFt (16384 + 4 * 7))) 2 = false ∧ state10_13.hostAddr hI = some hI ∧ state10_13.hostServed (↑hI.hd : Nat) ∧
  state10_13.homeOf (hostLine hI) = some (kH, slH) ∧ state10_13.awaits (↑kF : Nat) (↑0 : Nat) (hostLine hI) = true ∧
  (state10_13.cru (↑0 : Nat)).st = CruSt.failed ∧ hmI.awaits (↑kF : Nat) (↑0 : Nat) (hostLine hI) = false := by
  and_intros <;> decide +kernel

theorem witness_CacheAndHearthCommands :
  ((ccS id).isFw (Requester.hd 3) = false ∨ ((ccS id).cru (↑3 : Nat)).st = CruSt.retired) ∧ state11_1.isFw rc = true ∧
  hasCru state11_1.build (↑3 : Nat) = true ∧ (state11_1.cru (↑3 : Nat)).st ≠ CruSt.retired ∧ (state11_1.cru (↑3 : Nat)).range.isSome = true ∧
  (ccD 128).isFw rc = true ∧ hasCru (ccD 128).build (↑3 : Nat) = true ∧ ((ccD 128).cru (↑3 : Nat)).st ≠ CruSt.retired ∧
  ((ccD 128).cru (↑3 : Nat)).range = none ∧ ((ccD 128).cru (↑3 : Nat)).miss = [] ∧ ((ccD 128).cru (↑3 : Nat)).wb = [] ∧
  ((ccD 128).cru (↑3 : Nat)).cache = [(128, clnD)] ∧ clnD.st = CSt.d ∧ (ccD 128).homeUp 128 = some (hlo 128) ∧
  (ccD 128).hasCredit (↑3 : Nat) (hlo 128) = true ∧ (ccD 128).reg64 (aCr (↑3 : Nat) 16392) / 64 ≤ 128 ∧
  128 ≤ (ccD 128).reg64 (aCr (↑3 : Nat) 16400) / 64 ∧ (ccD 384).isFw rc = true ∧ hasCru (ccD 384).build (↑3 : Nat) = true ∧
  ((ccD 384).cru (↑3 : Nat)).st ≠ CruSt.retired ∧ ((ccD 384).cru (↑3 : Nat)).range = none ∧ ((ccD 384).cru (↑3 : Nat)).miss = [] ∧
  ((ccD 384).cru (↑3 : Nat)).wb = [] ∧ ((ccD 384).cru (↑3 : Nat)).cache = [(384, clnD)] ∧ (ccD 384).homeUp 384 = some (hlo 384) ∧
  (ccD 384).hasCredit (↑3 : Nat) (hlo 384) = true ∧
  (384 < (ccD 384).reg64 (aCr (↑3 : Nat) 16392) / 64 ∨ (ccD 384).reg64 (aCr (↑3 : Nat) 16400) / 64 < 384) ∧
  (state11_1.cru (↑3 : Nat)).range = some rge ∧ rge.walked = true ∧ ((List.any (state11_1.cru (↑3 : Nat)).wb fun e => e.snd.byRange) = false) ∧
  (¬((state11_1.cru (↑3 : Nat)).cst = CacheSt.draining ∧ rge.why = RangeFor.drain)) ∧ (state11_1.cru (↑3 : Nat)).cst ≠ CacheSt.invalidating ∧
  (state11_1.cru (↑3 : Nat)).st = CruSt.running ∧ rge.why ≠ RangeFor.charge ∧ (state11_2.cru (↑3 : Nat)).range = some rgd ∧ rgd.walked = true ∧
  ((List.any (state11_2.cru (↑3 : Nat)).wb fun e => e.snd.byRange) = true ∨ (state11_2.cru (↑3 : Nat)).cst = CacheSt.draining ∧ rgd.why = RangeFor.drain) ∧
  (state11_3.cru (↑3 : Nat)).cst = CacheSt.draining ∧ (state11_3.cru (↑3 : Nat)).cache = [] ∧ (state11_3.cru (↑3 : Nat)).wb = [] ∧
  (state11_3.cru (↑3 : Nat)).miss = [] ∧ (state11_3.cru (↑3 : Nat)).xq = [] ∧
  ((state11_3.cru (↑3 : Nat)).range = none ∨ Option.map (fun x => x.why) (state11_3.cru (↑3 : Nat)).range = some RangeFor.drain ∧ (state11_3.cru (↑3 : Nat)).rangeDone = true) ∧
  ((ccS id).cru (↑3 : Nat)).cst ≠ CacheSt.draining ∧ (state11_5.cru (↑3 : Nat)).cst = CacheSt.invalidating ∧
  (state11_5.cru (↑3 : Nat)).xq = [] ∧ (state11_5.cru (↑3 : Nat)).range = none ∧ ((ccS id).cru (↑3 : Nat)).cst ≠ CacheSt.invalidating ∧
  (state11_6.ks (↑kF : Nat)).hst = CacheSt.draining ∧
  ((List.filter (fun e => e.snd.dirty) (state11_6.ks (↑kF : Nat)).hearth).length ≤ 64 - (state11_6.ks (↑kF : Nat)).evq.length) ∧
  tblFind (state11_6.ks (↑kF : Nat)).hearth slH = some hlD ∧ hlD.dirty = true ∧ (state11_7.ks (↑kF : Nat)).hst = CacheSt.draining ∧
  (64 - (state11_7.ks (↑kF : Nat)).evq.length < (List.filter (fun e => e.snd.dirty) (state11_7.ks (↑kF : Nat)).hearth).length) ∧
  ((heS id).ks (↑kF : Nat)).hst ≠ CacheSt.draining ∧ (hiS.ks (↑kF : Nat)).hst = CacheSt.invalidating ∧ 1 ∈ hiS.rst.steps ∧
  (hiS.ks (↑kF : Nat)).txns = [] ∧ (hiS.ks (↑kF : Nat)).queue = [] ∧ (hiS.ks (↑kF : Nat)).retry = [] ∧ (hiS.ks (↑kF : Nat)).jobs = [] ∧
  (((heS id).ks (↑kF : Nat)).hst ≠ CacheSt.invalidating ∨ ¬1 ∈ (heS id).rst.steps) := by
  and_intros <;> decide +kernel

theorem witness_MemoryPort :
  (mpS id).portFailed (↑kF : Nat) = false ∧ slB.toNat ∈ ((mpS id).ks (↑kF : Nat)).rdq ∧ ((mpS id).ks (↑kF : Nat)).txns = [txM] ∧
  txM.sla = slB.toNat ∧ txM.memPend = true ∧ txM.wait = [0] ∧ ((mpS id).ks (↑kF : Nat)).queue = [] ∧
  ((mpS id).ks (↑kF : Nat)).retry = [] ∧ ((mpS id).ks (↑kF : Nat)).jobs = [] ∧
  (hmI.portFailed (↑kF : Nat) = true ∨ ¬slB.toNat ∈ (hmI.ks (↑kF : Nat)).rdq) ∧ slB.toNat ∈ ((mpS id).ks (↑kF : Nat)).wrq ∧
  state11_8.portFailed (↑kF : Nat) = false ∧ ¬slB.toNat ∈ (state11_8.ks (↑kF : Nat)).wrq ∧
  (List.find? (fun e => e.fst == slB.toNat) (state11_8.ks (↑kF : Nat)).evq = some (slB.toNat, 2748, true)) ∧ state11_8.unspec = [] ∧
  Memory.wf state11_8.stack = true ∧ failP.portFailed (↑kF : Nat) = true ∧ scS.scrubBusy (↑kF : Nat) = true ∧
  (scS.ks (↑kF : Nat)).scrubLeft ≠ 0 ∧ (scS.ks (↑kF : Nat)).busy (scS.scrubCursor (↑kF : Nat)) = false ∧
  scS.portFailed (↑kF : Nat) = false ∧ scS.internalRoom (↑kF : Nat) = true ∧
  (scS.scrubCursor (↑kF : Nat) < scS.reg64 ((fun o => aMp (↑kF : Nat) o) 1288) / 64) ∧ scS.scrubCursor (↑kF : Nat) + 1 < 2 ^ 30 ∧
  scL.scrubBusy (↑kF : Nat) = true ∧ (scL.ks (↑kF : Nat)).scrubLeft ≠ 0 ∧
  (scL.ks (↑kF : Nat)).busy (scL.scrubCursor (↑kF : Nat)) = false ∧ scL.portFailed (↑kF : Nat) = false ∧
  scL.internalRoom (↑kF : Nat) = true ∧ (scL.reg64 ((fun o => aMp (↑kF : Nat) o) 1288) / 64 ≤ scL.scrubCursor (↑kF : Nat)) ∧
  (scL.fld ((fun o => aMp (↑kF : Nat) o) 1296) 24 1 = 0) ∧ scC.scrubBusy (↑kF : Nat) = true ∧ (scC.ks (↑kF : Nat)).scrubLeft ≠ 0 ∧
  (scC.ks (↑kF : Nat)).busy (scC.scrubCursor (↑kF : Nat)) = false ∧ scC.portFailed (↑kF : Nat) = false ∧
  scC.internalRoom (↑kF : Nat) = true ∧ (scC.reg64 ((fun o => aMp (↑kF : Nat) o) 1288) / 64 ≤ scC.scrubCursor (↑kF : Nat)) ∧
  (scC.fld ((fun o => aMp (↑kF : Nat) o) 1296) 24 1 = 1) ∧
  ((mpS id).scrubBusy (↑kF : Nat) = false ∨ ((mpS id).ks (↑kF : Nat)).scrubLeft = 0 ∨ ((mpS id).ks (↑kF : Nat)).busy ((mpS id).scrubCursor (↑kF : Nat)) = true ∨ (mpS id).internalRoom (↑kF : Nat) = false) ∧
  hasKs scS.build (↑kF : Nat) = true ∧ scS.keyUp (↑kF : Nat) = true ∧ hasKs state11_9.build (↑23 : Nat) = false ∧
  ((scS.ks (↑kF : Nat)).rdq ≠ [] ∨ (scS.ks (↑kF : Nat)).wrq ≠ [] ∨ (scS.ks (↑kF : Nat)).evq ≠ []) ∧
  ((hmI.ks (↑kF : Nat)).rdq = [] ∧ (hmI.ks (↑kF : Nat)).wrq = [] ∧ (hmI.ks (↑kF : Nat)).evq = [] ∨ hmI.portFailed (↑kF : Nat) = true) ∧
  scS.isFw rc = true ∧ (scS.testOk (↑kF : Nat) = false ∨ scS.portFailed (↑kF : Nat) = true) ∧ (mpS id).isFw rc = true ∧
  (mpS id).keyUp (↑kF : Nat) = true ∧ (mpS id).scrubBusy (↑kF : Nat) = false ∧ tstS.isFw rc = true ∧ tstS.keyUp (↑kF : Nat) = true ∧
  tstS.testOk (↑kF : Nat) = true ∧ tstS.portFailed (↑kF : Nat) = false ∧ tstS.unspec = [] ∧ Memory.wf tstS.stack = true ∧
  (tblFind (tstS.ks (↑kF : Nat)).rawCheck (tstS.reg64 ((fun o => aMp (↑kF : Nat) o) 1544) / 64) = some 74565) ∧
  (hmI.isFw (Requester.hd 3) = false ∨ hmI.keyUp (↑kF : Nat) = false) := by
  and_intros <;> decide +kernel

theorem witness_SprueMoves :
  hasSite (spH [nm0]).build (↑3 : Nat) = true ∧ nm0.fits = true ∧
  (∀ (h : Held), h ∈ (spH [nm0]).sprue → (spH [nm0]).mustEscape h.x h.m = false) ∧
  (spH [nm0]).spHead (↑3 : Nat) RPort.loc nm0.vn = some { x := (↑3 : Nat), p := RPort.loc, m := nm0 } ∧
  (spH [nm0]).route (↑3 : Nat) nm0 = Out.dir SPort.e ∧ (spH [nm0]).spNext (↑3 : Nat) (Out.dir SPort.e) = some hd0 ∧
  hasSite (spH [nmH]).build (↑3 : Nat) = true ∧ nmH.fits = true ∧
  (∀ (h : Held), h ∈ (spH [nmH]).sprue → (spH [nmH]).mustEscape h.x h.m = false) ∧
  (spH [nmH]).spHead (↑3 : Nat) RPort.loc nmH.vn = some { x := (↑3 : Nat), p := RPort.loc, m := nmH } ∧
  (spH [nmH]).route (↑3 : Nat) nmH = Out.here ∧ (spH [nmH]).spNext (↑3 : Nat) Out.here = some hdH ∧
  hasSite state11_10.build (↑3 : Nat) = true ∧ (∀ (h : Held), h ∈ state11_10.sprue → state11_10.mustEscape h.x h.m = false) ∧
  state11_10.spHead (↑3 : Nat) RPort.loc nm0.vn = some { x := (↑3 : Nat), p := RPort.loc, m := nm0 } ∧
  state11_10.route (↑3 : Nat) nm0 = Out.dir SPort.e ∧ state11_10.spNext (↑3 : Nat) (Out.dir SPort.e) = none ∧
  hasSite state11_11.build (↑3 : Nat) = true ∧ (∀ (h : Held), h ∈ state11_11.sprue → state11_11.mustEscape h.x h.m = false) ∧
  state11_11.spHead (↑3 : Nat) RPort.loc nm0.vn = some { x := (↑3 : Nat), p := RPort.loc, m := nm0 } ∧
  state11_11.route (↑3 : Nat) nm0 = Out.none ∧ hasSite (spS id).build (↑3 : Nat) = true ∧ (spS id).sprue = [] ∧
  (spS id).route (↑3 : Nat) nm0 = Out.dir SPort.e ∧ (spS id).spRoom (↑3 : Nat) nm0 (Out.dir SPort.e) = true ∧
  (spH [nm0, nmE]).spOffer (↑3 : Nat) (Out.dir SPort.e) Vn.esc = some hdE ∧ nm0.vn ≠ Vn.esc ∧
  (∀ (h : Held), h ∈ (spH [nm0]).sprue → h.x = (↑3 : Nat) → h.m.vn ≠ Vn.esc) ∧
  (spH [nm0]).route (↑3 : Nat) { vn := Vn.esc, dest := nm0.dest, msg := nm0.msg, body := nm0.body } = Out.dir SPort.e ∧
  (spH [nm0]).spRoom (↑3 : Nat) { vn := Vn.esc, dest := nm0.dest, msg := nm0.msg, body := nm0.body } (Out.dir SPort.e) = true ∧
  (∀ (h : Held), h ∈ state11_12.sprue → state11_12.mustEscape h.x h.m = false) ∧
  state11_12.spHead (↑3 : Nat) RPort.loc nm0.vn = some { x := (↑3 : Nat), p := RPort.loc, m := nm0 } ∧
  (∀ (h : Held), h ∈ state11_12.sprue → h.x = (↑3 : Nat) → h.m.vn ≠ Vn.esc) ∧
  state11_12.route (↑3 : Nat) { vn := Vn.esc, dest := nm0.dest, msg := nm0.msg, body := nm0.body } = Out.dir SPort.e ∧
  state11_12.spRoom (↑3 : Nat) { vn := Vn.esc, dest := nm0.dest, msg := nm0.msg, body := nm0.body } (Out.dir SPort.e) = false ∧
  (spW wr0).portActive (↑3 : Nat) SPort.w = true ∧ (↑2 : Nat) < ((spW wr0).link (↑3 : Nat) SPort.w).modules ∧ (spW wr0).wires = [wr0] ∧
  wr0.x = (↑3 : Nat) ∧ wr0.p = SPort.w ∧ (wr0.j = none ∨ wr0.j = some (↑2 : Nat)) ∧
  (∀ (h : Held), h ∈ (spW wr0).sprue → (spW wr0).mustEscape h.x h.m = false) ∧ (spW wr0).mustEscape (↑3 : Nat) wr0.m = false ∧
  msgSlots wr0.m - wr0.got ≤ (↑4 : Nat) ∧ 1 ≠ tblGet (spW wr0).flitSeq 0 (flitKey (↑3 : Nat) SPort.w (↑2 : Nat)) ∧
  3 ≤ (spW wr0).replayLimit ∧ (spW wrD).portActive (↑3 : Nat) SPort.w = true ∧
  (↑2 : Nat) < ((spW wrD).link (↑3 : Nat) SPort.w).modules ∧ (spW wrD).wires = [wrD] ∧ wrD.x = (↑3 : Nat) ∧ wrD.p = SPort.w ∧
  (wrD.j = none ∨ wrD.j = some (↑2 : Nat)) ∧ (∀ (h : Held), h ∈ (spW wrD).sprue → (spW wrD).mustEscape h.x h.m = false) ∧
  (spW wrD).mustEscape (↑3 : Nat) wrD.m = false ∧ (↑4 : Nat) < msgSlots wrD.m - wrD.got ∧ (spW wrD).replayLimit < 3000 ∧
  ((spS id).link (↑3 : Nat) SPort.n).st = LinkSt.training ∧ (spS id).linkHas (↑3 : Nat) SPort.n = true ∧
  (spS id).minModules ≤ (↑6 : Nat) ∧ (↑0 : Nat) < (spS id).minModules ∧ ((spS id).link (↑13 : Nat) SPort.n).st = LinkSt.retrain ∧
  (spS id).minModules ≤ (↑4 : Nat) ∧
  ((if (↑4 : Nat) < ((spS id).link (↑13 : Nat) SPort.n).modules ∨ true = false then ((spS id).link (↑13 : Nat) SPort.n).barren + 1 else 0) < 3) ∧
  ((↑0 : Nat) < (spS id).minModules ∨ 3 ≤ if (↑0 : Nat) < ((spS id).link (↑13 : Nat) SPort.n).modules ∨ true = false then ((spS id).link (↑13 : Nat) SPort.n).barren + 1 else 0) ∧
  hasSite (spS id).build (↑13 : Nat) = true ∧ (spS id).isFw rc = true ∧ (spS id).isFw (Requester.hd 3) = false ∧
  (spS id).linkHas (↑3 : Nat) SPort.e = true := by
  and_intros <;> decide +kernel

theorem witness_GatesAndDevices :
  state12_1.gateIn (↑1 : Nat) = true ∧ (state12_1.gate (↑1 : Nat)).retraining = true ∧ ((gtS id id).gate (↑1 : Nat)).up = true ∧
  ((gtS id id).gate (↑1 : Nat)).retraining = false ∧ (state12_1.gate (↑1 : Nat)).up = true ∧ (gtS id id).gateIn (↑1 : Nat) = true ∧
  (gtS id id).pinsLive = true ∧ (gtS id id).ldUp (↑21 : Nat) = true ∧ ((gtS id id).hd (↑21 : Nat)).bme = true ∧
  ((gtS id id).hd (↑21 : Nat)).flr = false ∧ ((gtS id id).hd (↑21 : Nat)).d3hot = false ∧ (state12_2.hd (↑21 : Nat)).flr = true ∧
  (state12_3.hd (↑21 : Nat)).flrSanitizing = true ∧ (state12_3.hd (↑21 : Nat)).flrExts = [] ∧
  (tblGet ((gtS id id).hd (↑21 : Nat)).decoders { } (↑hdF.ix : Nat)).locked = false ∧
  (tblGet ((gtS id id).hd (↑21 : Nat)).decoders { } (↑hdB.ix : Nat)).locked = false ∧
  (¬hdB.ways ∈ [1, 2, 4, 8] ∨ ¬hdB.gran ∈ [256, 512, 1024, 2048, 4096] ∨ hdB.base % 2 ^ 28 ≠ 0 ∨ hdB.size % 2 ^ 28 ≠ 0) ∧
  gtL.ldUp (↑21 : Nat) = true ∧ (tblGet (gtL.hd (↑21 : Nat)).decoders { } (↑hdF.ix : Nat)).locked = true ∧
  (↑9 : Nat) ∈ (state12_4.hd (↑21 : Nat)).msixHeld ∧ (state12_4.hd (↑21 : Nat)).msixHeldBack (↑9 : Nat) = false ∧
  (state12_4.hd (↑21 : Nat)).bme = true ∧ (state12_4.hd (↑21 : Nat)).flr = false ∧ (state12_4.gate (↑1 : Nat)).up = true ∧
  (state12_4.gate (↑1 : Nat)).retraining = false ∧ ((gtS id id).core (coreNo (gtS id id).active (↑2 : Nat))).wfi = false ∧
  (state12b_1.gate (↑1 : Nat)).up = true ∧ (state12b_1.gate (↑1 : Nat)).retraining = true := by
  and_intros <;> decide +kernel

theorem witness_SlotSequences :
  (slS 4 id).gateIn (↑1 : Nat) = true ∧ (slS 4 id).pinsLive = true ∧ ((slS 4 id).gate (↑1 : Nat)).prsnt ≠ false ∧
  ((fun t => t.slotState (↑1 : Nat)) (slS 4 id) ≠ 0) ∧ (slS 0 id).gateIn (↑1 : Nat) = true ∧ (slS 0 id).fw.scanDue = true ∧
  (∀ (k : Nat), k < 8 → k ≠ (↑1 : Nat) → (slS 0 id).gateIn k = true → ((slS 0 id).gate k).prsnt = true ∧ (slS 0 id).slotState k ≠ 0 ∧ ((slS 0 id).gate k).attnCount = ((slS 0 id).gate k).seenAttn ∧ ((slS 0 id).gate k).wantAttach = false) ∧
  ((slS 0 id).gate (↑1 : Nat)).prsnt = true ∧ ((fun t => t.slotState (↑1 : Nat)) (slS 0 id) = 0) ∧ state12_5.gateIn (↑1 : Nat) = true ∧
  state12_5.fw.scanDue = true ∧
  (∀ (k : Nat), k < 8 → k ≠ (↑1 : Nat) → state12_5.gateIn k = true → (state12_5.gate k).prsnt = true ∧ state12_5.slotState k ≠ 0 ∧ (state12_5.gate k).attnCount = (state12_5.gate k).seenAttn ∧ (state12_5.gate k).wantAttach = false) ∧
  (state12_5.gate (↑1 : Nat)).prsnt = true ∧ (state12_5.gate (↑1 : Nat)).prsntCount = (state12_5.gate (↑1 : Nat)).seenPrsnt ∧
  (state12_5.gate (↑1 : Nat)).attnCount ≠ (state12_5.gate (↑1 : Nat)).seenAttn ∧ ((fun t => t.slotState (↑1 : Nat)) state12_5 = 4) ∧
  state12_6.gateIn (↑1 : Nat) = true ∧ state12_6.fw.scanDue = true ∧
  (∀ (k : Nat), k < 8 → k ≠ (↑1 : Nat) → state12_6.gateIn k = true → (state12_6.gate k).prsnt = true ∧ state12_6.slotState k ≠ 0 ∧ (state12_6.gate k).attnCount = (state12_6.gate k).seenAttn ∧ (state12_6.gate k).wantAttach = false) ∧
  (state12_6.gate (↑1 : Nat)).prsnt = true ∧ (state12_6.gate (↑1 : Nat)).prsntCount = (state12_6.gate (↑1 : Nat)).seenPrsnt ∧
  (state12_6.gate (↑1 : Nat)).attnCount ≠ (state12_6.gate (↑1 : Nat)).seenAttn ∧ ((fun t => t.slotState (↑1 : Nat)) state12_6 = 5) ∧
  state12_7.gateIn (↑1 : Nat) = true ∧ (state12_7.gate (↑1 : Nat)).training = true ∧ (state12_7.gate (↑1 : Nat)).retraining = false ∧
  ((fun t => t.slotState (↑1 : Nat)) state12_7 = 3) ∧ state12_7.sweptFor (↑1 : Nat) = true ∧ state12_8.gateIn (↑1 : Nat) = true ∧
  (state12_8.gate (↑1 : Nat)).wantAttach = true ∧ state12_8.sweptFor (↑1 : Nat) = true ∧ (state12_8.gate (↑1 : Nat)).up = false ∧
  ((fun t => t.slotState (↑1 : Nat)) state12_8 = 1) ∧ state12_9.gateIn (↑1 : Nat) = true ∧ (state12_9.gate (↑1 : Nat)).wantAttach = true ∧
  state12_9.sweptFor (↑1 : Nat) = true ∧ (state12_9.gate (↑1 : Nat)).up = true ∧ ((fun t => t.slotState (↑1 : Nat)) state12_9 = 3) ∧
  (slS 2 id).gateIn (↑1 : Nat) = true ∧ ((fun t => t.slotState (↑1 : Nat)) (slS 2 id) = 2) ∧ (slS 3 id).gateIn (↑1 : Nat) = true ∧
  ((fun t => t.slotState (↑1 : Nat)) (slS 3 id) = 3) ∧ ((slS 3 id).gate (↑1 : Nat)).up = false ∧
  ((slS 3 id).gate (↑1 : Nat)).perst = false ∧ state12_10.gateIn (↑1 : Nat) = true ∧ ((fun t => t.slotState (↑1 : Nat)) state12_10 = 4) ∧
  (state12_10.gate (↑1 : Nat)).up = false ∧ (state12_10.gate (↑1 : Nat)).dropped = true ∧ (slS 5 id).gateIn (↑1 : Nat) = true ∧
  ((fun t => t.slotState (↑1 : Nat)) (slS 5 id) = 5) ∧ (slS 6 id).gateIn (↑1 : Nat) = true ∧
  ((fun t => t.slotState (↑1 : Nat)) (slS 6 id) = 6) ∧ ((slS 6 id).gate (↑1 : Nat)).waitTags = false ∧
  ((slS 6 id).gate (↑1 : Nat)).releasing = false ∧ state12_11.gateIn (↑1 : Nat) = true ∧ (state12_11.gate (↑1 : Nat)).waitTags = true ∧
  state12_12.gateIn (↑1 : Nat) = true ∧ (state12_12.gate (↑1 : Nat)).releasing = true ∧
  (∀ (k : Nat), k ∈ state12_12.keysUp → state12_12.releaseDone k (↑1 : Nat) = true) ∧ (slS 1 id).gateIn (↑1 : Nat) = true ∧
  (slS 1 id).isFw (Requester.hd 3) = false ∧ (slS 1 id).isFw rg1 = true ∧ (slS 1 id).linkEnabled (↑1 : Nat) = false ∧
  BitVec.getLsbD (pageWrite Page.base ((slS 1 id).reg (aSlot (↑1 : Nat))) 2 63) 1 = true ∧ state12_13.gateIn (↑1 : Nat) = true ∧
  state12_13.isFw rg1 = true ∧ state12_13.linkEnabled (↑1 : Nat) = true ∧
  BitVec.getLsbD (pageWrite Page.base (state12_13.reg (aSlot (↑1 : Nat))) 0 63) 1 = false ∧
  BitVec.getLsbD (pageWrite Page.base ((slS 1 id).reg (aSlot (↑1 : Nat))) 0 63) 1 = (slS 1 id).linkEnabled (↑1 : Nat) ∧
  state12_14.gateIn (↑1 : Nat) = true ∧ state12_14.fw.scanDue = true ∧
  (∀ (k : Nat), k < 8 → k ≠ (↑1 : Nat) → state12_14.gateIn k = true → (state12_14.gate k).prsnt = true ∧ state12_14.slotState k ≠ 0 ∧ (state12_14.gate k).attnCount = (state12_14.gate k).seenAttn ∧ (state12_14.gate k).wantAttach = false) ∧
  (state12_14.gate (↑1 : Nat)).prsnt = false ∧ state12_15.gateIn (↑1 : Nat) = true ∧ state12_15.fw.scanDue = true ∧
  (∀ (k : Nat), k < 8 → k ≠ (↑1 : Nat) → state12_15.gateIn k = true → (state12_15.gate k).prsnt = true ∧ state12_15.slotState k ≠ 0 ∧ (state12_15.gate k).attnCount = (state12_15.gate k).seenAttn ∧ (state12_15.gate k).wantAttach = false) ∧
  (state12_15.gate (↑1 : Nat)).prsntCount ≠ (state12_15.gate (↑1 : Nat)).seenPrsnt ∧ ((fun t => t.slotState (↑1 : Nat)) state12_15 ≠ 0) ∧
  state12_16.gateIn (↑1 : Nat) = true ∧ state12_16.fw.scanDue = true ∧
  (∀ (k : Nat), k < 8 → k ≠ (↑1 : Nat) → state12_16.gateIn k = true → (state12_16.gate k).prsnt = true ∧ state12_16.slotState k ≠ 0 ∧ (state12_16.gate k).attnCount = (state12_16.gate k).seenAttn ∧ (state12_16.gate k).wantAttach = false) ∧
  (state12_16.gate (↑1 : Nat)).prsnt = true ∧ (state12_16.gate (↑1 : Nat)).prsntCount = (state12_16.gate (↑1 : Nat)).seenPrsnt ∧
  (state12_16.gate (↑1 : Nat)).attnCount ≠ (state12_16.gate (↑1 : Nat)).seenAttn ∧ ((fun t => t.slotState (↑1 : Nat)) state12_16 = 1) ∧
  state12_16.sweptFor (↑1 : Nat) = true ∧ state12_17.gateIn (↑1 : Nat) = true ∧ state12_17.fw.scanDue = true ∧
  (∀ (k : Nat), k < 8 → k ≠ (↑1 : Nat) → state12_17.gateIn k = true → (state12_17.gate k).prsnt = true ∧ state12_17.slotState k ≠ 0 ∧ (state12_17.gate k).attnCount = (state12_17.gate k).seenAttn ∧ (state12_17.gate k).wantAttach = false) ∧
  (state12_17.gate (↑1 : Nat)).prsnt = true ∧ (state12_17.gate (↑1 : Nat)).prsntCount = (state12_17.gate (↑1 : Nat)).seenPrsnt ∧
  (state12_17.gate (↑1 : Nat)).attnCount ≠ (state12_17.gate (↑1 : Nat)).seenAttn ∧ ((fun t => t.slotState (↑1 : Nat)) state12_17 = 7) := by
  and_intros <;> decide +kernel

theorem witness_CapacityCommands :
  ((dcS exG).hd (↑5 : Nat)).respDue = none ∧ (dcB.hd (↑5 : Nat)).respDue.isSome = true ∧ 3 ≤ ((dcS exG).freeOrder (↑1 : Nat)).length ∧
  (dcS exG).offered (↑5 : Nat) + ((dcS exG).gatherRuns (List.take 3 ((dcS exG).freeOrder (↑1 : Nat)))).length ≤ 64 ∧
  tblFind (dcS exG).extents 0 = some exG ∧ ((dcS exG).nearSoon (↑1 : Nat) = true → 2 ≤ 12) ∧
  (dcS exG).freeRun (↑1 : Nat) 2 = some frb ∧ (dcS exG).offered (↑5 : Nat) + [(frb, 2)].length ≤ 64 ∧ rs1 ≠ [] ∧
  (∀ (q : Nat × Nat), q ∈ rs1 → (dcS exG).runOk q.fst q.snd = true ∧ ∀ (i : Nat), i < q.snd → (dcS exG).blockFree (q.fst + i) = true) ∧
  ((List.flatMap (fun r => List.map (fun x => x + r.fst) (List.range r.snd)) rs1).Nodup) ∧
  (dcS exG).offered (↑5 : Nat) + rs1.length ≤ 64 ∧ ((dcS exG).freeOrder (↑1 : Nat)).length < 5000 ∧
  (allRun.nearSoon (↑1 : Nat) = true → 12 ≤ 12) ∧ allRun.freeRun (↑1 : Nat) 12 = none ∧
  (∀ (q : Nat × Nat), q ∈ rs1 → manyO.runOk q.fst q.snd = true ∧ ∀ (i : Nat), i < q.snd → manyO.blockFree (q.fst + i) = true) ∧
  64 < manyO.offered (↑5 : Nat) + rs1.length ∧ q8 ∈ rs8 ∧
  ((dcS exG).runOk q8.fst q8.snd = false ∨ ∃ i, i < q8.snd ∧ (dcS exG).blockFree (q8.fst + i) = false) ∧
  (dcS exS).extents = [(0, exS)] ∧ exS.tag = 7 ∧ exS.st = ExtSt.granted ∧ ¬(↑5 : Nat) ∈ exS.holders ∧ ¬(↑5 : Nat) ∈ exS.offers ∧
  ¬(↑5 : Nat) ∈ exS.join ∧ (dcS exS).offered (↑5 : Nat) < 64 ∧ (dcS exG).tagged 9 = [] ∧ (dcS exG).extAt exG.first = some (0, exG) ∧
  exG.st ≠ ExtSt.quiescing ∧ exG.st ≠ ExtSt.sanitizing ∧ exG.heldBy (↑5 : Nat) = true ∧ (dcS exS).extAt exS.first = some (0, exS) ∧
  exS.st ≠ ExtSt.quiescing ∧ exS.st ≠ ExtSt.sanitizing ∧ exS.heldBy (↑5 : Nat) = false ∧ ((dcS exS).hd (↑5 : Nat)).respDue = none ∧
  (dcS exO).extAt exO.first = some (0, exO) ∧ exO.st ≠ ExtSt.quiescing ∧ exO.st ≠ ExtSt.sanitizing ∧ exO.heldBy (↑5 : Nat) = false ∧
  exO.offers = [(↑5 : Nat)] ∧ exO.st = ExtSt.offered ∧ (dcS exO).extents = [(0, exO)] ∧ (dcS exG).extAt 3 = none ∧
  (dcO.hd (↑5 : Nat)).respDue = none ∧ (dcO.hd (↑5 : Nat)).events = DcEvent.add [0] :: noEv ∧ tblFind dcO.extents 0 = some exO ∧
  exO.offers.contains (↑5 : Nat) = true ∧ (List.countP (fun e => e.snd.heldBy (↑5 : Nat)) dcO.extents < 512) ∧
  (List.countP (fun e => e.snd.heldBy (↑5 : Nat)) dcO.extents ≤ 512) ∧ dcO.extents = [(0, exO)] ∧ 9 ≠ exO.first ∧
  ((dcS exG).hd (↑5 : Nat)).events = [] ∧ (∀ (b : Nat), b ∈ state13_1.regionBlocks (↑3 : Nat) → state13_1.blockFree b = true) ∧
  state13_1.tb.running = true ∧ (∀ (b : Nat), b ∈ (dcS exG).regionBlocks (↑3 : Nat) → (dcS exG).blockFree b = true) ∧
  (dcS exG).tb.running = false ∧ ((↑0 : Nat) = 7 ∨ ∃ b, b ∈ (dcS exG).regionBlocks (↑0 : Nat) ∧ (dcS exG).blockFree b = false) ∧
  tblFind dcZ.extents 0 = some exZ ∧ exZ.st = ExtSt.sanitizing ∧ exZ.ended = false ∧ dcZ.served 0 exZ = true ∧
  exZ.has (dcZ.poolUnmap 0 0 / 64) = true := by
  and_intros <;> decide +kernel

theorem witness_FirmwareCommands :
  bt0.rst.phase = RstPhase.none ∧ bt0.stepEnded 2 = true ∧ bt0.stepEnded 3 = false ∧ bt0.rst.badDies = [] ∧
  (List.find? (fun e => BitVec.getLsbD (14 : BitVec 4) e) bt0.quoinsAll = some 1) ∧ bt0.rst.afterChip = false ∧
  bt1.rst.phase = RstPhase.none ∧ bt1.stepEnded 2 = true ∧ bt1.stepEnded 3 = false ∧ bt1.rst.badDies = [] ∧
  (List.find? (fun e => BitVec.getLsbD (14 : BitVec 4) e) bt1.quoinsAll = some 1) ∧ bt1.rst.afterChip = true ∧
  bt1.fw.slot1.img = none ∧ bt1.fw.slot2.img = none ∧
  (((fwS id).fw.run = match FwSlot.slot2 with | FwSlot.slot1 => 1 | FwSlot.slot2 => 2) ∨ (fwS id).fw.waitImage = true ∧ (match FwSlot.slot2 with | FwSlot.slot1 => 1 | FwSlot.slot2 => 2) = 2) ∧
  ((fwS id).fw.run ≠ match FwSlot.slot1 with | FwSlot.slot1 => 1 | FwSlot.slot2 => 2) ∧
  ((fwS id).fw.waitImage = false ∨ (match FwSlot.slot1 with | FwSlot.slot1 => 1 | FwSlot.slot2 => 2) = 1) ∧
  (((fwS id).fwSlot (match FwSlot.slot2 with | FwSlot.slot1 => 1 | FwSlot.slot2 => 2)).img.isSome = true) ∧
  buildEdies (fwS id).build ≠ 1 ∧ buildEdies fwN.build = 1 ∧
  (((fwS id).fwSlot (match FwSlot.slot1 with | FwSlot.slot1 => 1 | FwSlot.slot2 => 2)).img = none) ∧
  (true = true → buildEdies (fwS id).build ≠ 1) ∧ tblFind (mlS 1 21 0 1).fw.mail (↑21 : Nat) = some 1 ∧
  tblFind (mlS 2 21 0 9).fw.mail (↑21 : Nat) = some 2 ∧ 8 ≤ (mlS 2 21 0 9).fld (aHmb (↑21 : Nat) 256) 0 8 ∧
  tblFind (mlS 2 21 0 1).fw.mail (↑21 : Nat) = some 2 ∧ (mlS 2 21 0 1).fld (aHmb (↑21 : Nat) 256) 0 8 < 8 ∧
  (mlS 2 21 0 1).slotState ((mlS 2 21 0 1).fld (aHmb (↑21 : Nat) 256) 0 8) ≠ 1 ∧ tblFind (mlS 2 21 1 1).fw.mail (↑21 : Nat) = some 2 ∧
  (mlS 2 21 1 1).fld (aHmb (↑21 : Nat) 256) 0 8 < 8 ∧ (mlS 2 21 1 1).slotState ((mlS 2 21 1 1).fld (aHmb (↑21 : Nat) 256) 0 8) = 1 ∧
  (mlS 2 21 1 1).sweptFor ((mlS 2 21 1 1).fld (aHmb (↑21 : Nat) 256) 0 8) = true ∧ tblFind mlW.fw.mail (↑21 : Nat) = some 2 ∧
  mlW.fld (aHmb (↑21 : Nat) 256) 0 8 < 8 ∧ mlW.slotState (mlW.fld (aHmb (↑21 : Nat) 256) 0 8) = 1 ∧
  mlW.sweptFor (mlW.fld (aHmb (↑21 : Nat) 256) 0 8) = false ∧ tblFind (mlS 3 21 4 9).fw.mail (↑21 : Nat) = some 3 ∧
  8 ≤ (mlS 3 21 4 9).fld (aHmb (↑21 : Nat) 256) 0 8 ∧ tblFind (mlS 3 21 4 2).fw.mail (↑21 : Nat) = some 3 ∧
  (mlS 3 21 4 2).fld (aHmb (↑21 : Nat) 256) 0 8 < 8 ∧ (↑21 : Nat) / 16 ≠ (mlS 3 21 4 2).fld (aHmb (↑21 : Nat) 256) 0 8 ∧
  tblFind (mlS 3 21 4 1).fw.mail (↑21 : Nat) = some 3 ∧ (↑21 : Nat) / 16 = (mlS 3 21 4 1).fld (aHmb (↑21 : Nat) 256) 0 8 ∧
  (mlS 3 21 4 1).slotState ((mlS 3 21 4 1).fld (aHmb (↑21 : Nat) 256) 0 8) = 4 ∧ tblFind (mlS 3 21 1 1).fw.mail (↑21 : Nat) = some 3 ∧
  (↑21 : Nat) / 16 = (mlS 3 21 1 1).fld (aHmb (↑21 : Nat) 256) 0 8 ∧
  (mlS 3 21 1 1).slotState ((mlS 3 21 1 1).fld (aHmb (↑21 : Nat) 256) 0 8) ≠ 4 ∧ tblFind (mlS 4 21 4 9).fw.mail (↑21 : Nat) = some 4 ∧
  8 ≤ (mlS 4 21 4 9).fld (aHmb (↑21 : Nat) 256) 0 8 ∧ tblFind (mlS 4 21 4 1).fw.mail (↑21 : Nat) = some 4 ∧
  (mlS 4 21 4 1).fld (aHmb (↑21 : Nat) 256) 0 8 < 8 ∧ tblFind (fwS id).fw.mail (↑21 : Nat) = none ∧ (fwS id).isFw rg1 = true ∧
  (fwS id).isFw rgH = false ∧ hasE (fwS id).build (↑0 : Nat) = true ∧
  ((fwS id).core (coreNo (↑0 : Nat) (↑(Fin.ofNat 4 1) : Nat))).out = false ∧ hasE (fwS id).build (↑2 : Nat) = true ∧
  fwB.fw.slot1.img = some img0 ∧ fwB.fw.slot2.img = some img0 := by
  and_intros <;> decide +kernel

theorem witness_FaultEvents :
  srcAssigned (↑fe0.src : Nat) = true ∧ core0.inReset = false ∧ 72 ≤ fe0.unit ∧ (↑fe0.src : Nat) ≠ 20 ∧ (↑fe0.src : Nat) ≠ 40 ∧
  core0.fc.blkCru = [] ∧ core0.fc.held = [] ∧
  ((fun n k => BitVec.getLsbD (core0.reg (aFt (16384 + 4 * n))) k) (↑fe0.src : Nat) 0 = true) ∧
  ((fun n k => BitVec.getLsbD (core0.reg (aFt (16384 + 4 * n))) k) (↑fe0.src : Nat) 1 = false) ∧ core0.ftQueued < 256 ∧
  core0.reg64 (aFt 48) + 1 < 2 ^ 64 ∧ srcAssigned (↑fe1.src : Nat) = true ∧ 72 ≤ fe1.unit ∧ (↑fe1.src : Nat) ≠ 20 ∧
  (↑fe1.src : Nat) ≠ 40 ∧ (srcInfo (↑fe1.src : Nat)).cls ≠ 0 ∧ core0.fld (aFt 16) 15 1 = 0 ∧ (ph (RstPhase.drain 2 3)).inReset = true ∧
  (ph (RstPhase.drain 2 3)).fc.blkCru = [] ∧ hasCru state14_2.build (↑3 : Nat) = true ∧ state14_2.fc.blkCru = [] ∧
  ((fun n k => BitVec.getLsbD (state14_2.reg (aFt (16384 + 4 * n))) k) 1 2 = false) ∧ hasCru ueD.build (↑3 : Nat) = true ∧
  ueD.fc.blkCru = [] ∧ ((fun n k => BitVec.getLsbD (ueD.reg (aFt (16384 + 4 * n))) k) 2 2 = false) ∧
  tblFind (ueD.cru (↑3 : Nat)).cache 128 = some clD ∧ clD.st = CSt.d ∧ hasKs (ueH hlDy).build (↑kFf : Nat) = true ∧
  (ueH hlDy).fc.blkCru = [] ∧ tblFind ((ueH hlDy).ks (↑kFf : Nat)).hearth slH = some hlDy ∧ hlDy.dirty = true ∧
  hasKs (ueH hl0).build (↑kFf : Nat) = true ∧ (ueH hl0).fc.blkCru = [] ∧ tblFind ((ueH hl0).ks (↑kFf : Nat)).hearth slH = some hl0 ∧
  hl0.dirty = false ∧ (frc.isFw rc4 = true ∨ rc4 = Requester.test) ∧ frc.inReset = false ∧ frc.fc.blkCru = [] ∧
  72 ≤ frc.fld (aFt 40) 0 10 ∧ frc.isFw rcH = false ∧ rcH ≠ Requester.test ∧ core0.isFw rc4 = true ∧ core0.isFw rcH = false ∧
  fq0.isFw rc4 = true ∧ fq0.reg64 (aFt 56) ≤ BitVec.toNat (9 : Word) ∧ BitVec.toNat (9 : Word) ≤ fq0.reg64 (aFt 48) ∧
  (fq0.isFw rc4 = false ∨ BitVec.toNat (4 : Word) < fq0.reg64 (aFt 56) ∨ fq0.reg64 (aFt 48) < BitVec.toNat (4 : Word)) ∧
  fh0.fc.held = state14_3 :: state14_4 ∧ fh0.ftQueued < 256 ∧ fh0.reg64 (aFt 48) + 1 < 2 ^ 64 ∧
  (core0.isFw rc4 = true ∧ BitVec.getLsbD (pageWrite Page.base (core0.reg (aFt 8)) 1 1) 0 = true ∨ rc4 = Requester.smbus ∨ rc4 = Requester.test) ∧
  rcH ≠ Requester.smbus ∧ (core0.isFw rcH = false ∨ BitVec.getLsbD (pageWrite Page.base (core0.reg (aFt 8)) 0 1) 0 = false) ∧
  core0.pinsLive = true ∧ core0.fc.warn = false ∧ hasSite core0.build (↑3 : Nat) = true ∧ core0.fc.hot.contains (↑3 : Nat) = false ∧
  core0.fc.chip = none ∧ ((fun n k => BitVec.getLsbD (core0.reg (aFt (16384 + 4 * n))) k) 39 3 = true) ∧
  core0.rst.phase ≠ RstPhase.thermHold ∧ (ph RstPhase.thermHold).rst.phase = RstPhase.thermHold ∧ hasKs core0.build (↑2 : Nat) = true ∧
  core0.keyUp (↑2 : Nat) = true := by
  and_intros <;> decide +kernel

theorem witness_MarkLogRecords :
  (mkS id).mlWriter rcH = false ∧ (mkF 4294967295).ml.frozen = true ∧ (mkS id).ml.frozen = false ∧
  ((mkS id).ml.written ≠ 0 ∧ (mkS id).ml.base ≤ (mkS id).ml.written - 1 ∧ (mkS id).ml.closed = false ∧ Option.any (fun l => l.code == mr9.code && l.cls == mr9.cls && l.unit == mr9.unit) (tblFind (mkS id).ml.ring (((mkS id).ml.written - 1) % 4096)) = true) ∧
  tblFind (mkS id).ml.ring (((mkS id).ml.written - 1) % 4096) = some mr0 ∧
  (¬((mkS id).ml.written ≠ 0 ∧ (mkS id).ml.base ≤ (mkS id).ml.written - 1 ∧ (mkS id).ml.closed = false ∧ Option.any (fun l => l.code == mr8.code && l.cls == mr8.cls && l.unit == mr8.unit) (tblFind (mkS id).ml.ring (((mkS id).ml.written - 1) % 4096)) = true)) ∧
  (mkS id).mlWriter rc4 = true ∧ (mkF 0).mlWriter rc4 = true ∧ (mkF 0).ml.frozen = true ∧ (mkF 0).ml.heldClear = false ∧
  (mkF 0).ml.missed = 0 ∧ (mkF 3).mlWriter rc4 = true ∧ (mkF 3).ml.frozen = true ∧ (mkF 3).ml.heldClear = false ∧
  (mkF 3).ml.missed ≠ 0 ∧ (mkF 3).mlWriter Requester.smbus = true := by
  and_intros <;> decide +kernel

theorem witness_ResetsAndBringUp :
  (ph RstPhase.porst).rst.phase = RstPhase.porst ∧ ((fun r => rsM.isFw r = true ∨ r = Requester.smbus ∨ r = Requester.test) rc4) ∧
  rsM.rst.phase = RstPhase.none ∧
  (rsM.openHostReqs = [] ∧ ∀ (n : Nat), n ∈ buildCrus rsM.build → (rsM.cru n).drains = false ∧ (rsM.cru n).st ≠ CruSt.stopping) ∧
  (¬(fun r => rsM.isFw r = true ∨ r = Requester.smbus ∨ r = Requester.test) rc4 ∨ bitsOf (50177 : BitVec 32) 8 8 ≠ 197 ∨ bitsOf (50177 : BitVec 32) 0 4 ≠ 1 ∨ rsM.rst.phase ≠ RstPhase.none) ∧
  chS12.rst.phase = RstPhase.none ∧ chS12.causeThere rc12 = true ∧
  (chS12.openHostReqs = [] ∧ ∀ (n : Nat), n ∈ buildCrus chS12.build → (chS12.cru n).drains = false ∧ (chS12.cru n).st ≠ CruSt.stopping) ∧
  rsM.causeThere rc12 = false ∧ drS.rst.phase = RstPhase.none ∧ drS.causeThere rc12 = true ∧
  (∃ k, k ∈ buildCrus drS.build ∧ (drS.cru k).drains = true ∧ ∃ a, a ∈ drS.outst ∧ a.aid = k ∧ a.store = true) ∧
  drD.rst.phase = RstPhase.drain 2 12 ∧ drD.drained (↑3 : Nat) = false ∧ ¬(↑3 : Nat) ∈ drD.rst.deadDrain ∧
  hasCru drD.build (↑3 : Nat) = true ∧ drD.dead.contains (↑3 : Nat) = false ∧
  (∃ k, k ∈ buildCrus drD.build ∧ k ≠ (↑3 : Nat) ∧ drD.drained k = false ∧ ¬k ∈ drD.rst.deadDrain) ∧ wlS.rst.withheld = true ∧
  wlS.rst.steps.contains 8 = false ∧ (wlS.gate 1).up = true ∧ state14_5.pinsTaken = false ∧ state14_5.rst.phase = RstPhase.drain 2 12 ∧
  state14_5.rst.shutting = true ∧ rsM.pinsTaken = false ∧ (ph RstPhase.shutdown).pinsTaken = false ∧
  (ph RstPhase.shutdown).rst.phase = RstPhase.shutdown ∧ bu0.rst.phase = RstPhase.none ∧
  ((↑5 : Nat) ∈ bu0.rst.steps ∨ ∃ j, j ∈ stepNeeds (↑5 : Nat) ∧ bu0.stepEnded j = false) ∧ ¬1 ∈ bu0.rst.steps ∧
  bu0.rst.afterChip = false ∧ (buL [1, 2]).rst.phase = RstPhase.none ∧ ¬4 ∈ (buL [1, 2]).rst.steps ∧ (buL [1, 2]).stepEnded 2 = true ∧
  ((buL [1, 2]).cru 0).st = CruSt.off ∧ ¬siteCru 0 ∈ (buL [1, 2]).rst.badDies ∧ (buL [1, 2, 3, 4, 5, 6, 7]).rst.phase = RstPhase.none ∧
  7 ∈ (buL [1, 2, 3, 4, 5, 6, 7]).rst.steps ∧ (buL [1, 2, 3, 4, 5, 6, 7]).rst.stopped = false ∧
  ¬8 ∈ (buL [1, 2, 3, 4, 5, 6, 7]).rst.steps ∧ (buL [1, 2, 3, 4, 5, 6, 7]).rst.afterChip = false ∧
  (buL [1, 2, 3, 4, 5, 6, 7]).rst.mark = none ∧ buK.rst.phase = RstPhase.none ∧ ¬2 ∈ buK.rst.steps ∧ buK.stepEnded 1 = true := by
  and_intros <;> decide +kernel

end Sys2Proof.Tests
end

