-- ==== Sys2Proof/Proofs/DoubleTrap.lean ====
section
/-! PROOF. The double trap of a control core that stands in WFI. `State.coreTrap` stops the core but leaves its WFI mark, where
`State.coreEnter` and `State.wake` clear it. The fault event raised for the double trap ends with `State.wakeCores`, which still serves
the stopped core: with a line in IPEND and IEN and IE set, that core accepts an interrupt (R154, R194), and ECAUSE no longer holds the
first trap's value. -/

namespace Sys2Proof.Machine

open Sys2Proof

/-- Core 0 in the trap of a BREAK (ECAUSE 0x0D), in WFI with IE set again and its course-event line latched and enabled. -/
def wfiInTrap : State :=
  State.reset.modCore 0 (fun k =>
    { k with mki := { k.mki with epc := 0x40, ecause := 0x0D, inTrap := true, ie := true, ien := 1 }, wfi := true, lines := 1 })

theorem wfiInTrap_mki : (wfiInTrap.core 0).mki.inTrap = true ∧ (wfiInTrap.core 0).mki.ecause = 0x0D := by decide +kernel

/-- The second trap ends in the interrupt code. -/
theorem coreTrap_wfiInTrap_ecause : ((wfiInTrap.coreTrap 0 0 tBreak 0).core 0).mki.ecause = 0x80 := by decide +kernel

end Sys2Proof.Machine

open Sys2Proof Sys2Proof.Machine

/-- Refutes O15: its first clause speaks of every state with a core in a trap. Where that core also stands in WFI with an enabled line,
the fault event of the second trap lets it accept an interrupt, and ECAUSE changes from 0x0D to 0x80. -/
theorem not_doubleTrapStopsCore : ¬ Obligations.DoubleTrapStopsCore := by
  unfold Obligations.DoubleTrapStopsCore
  rintro ⟨keepsFirst, -⟩
  obtain ⟨inTrap, firstCause⟩ := wfiInTrap_mki
  obtain ⟨-, -, mkiKept⟩ := keepsFirst wfiInTrap 0 0 tBreak 0 inTrap
  have changed := coreTrap_wfiInTrap_ecause
  rw [mkiKept, firstCause] at changed
  exact absurd changed (by decide)

end

