-- ==== Sys2Proof/Proofs/Division.lean ====
section
/-! PROOF. The division instructions of Table 8.2: their next state for every divisor, and from it the two cases of R186. -/

namespace Sys2Proof.Machine

open Sys2Proof

section
variable {s : State} {u : MUnit} {f : FmtA}

/-- A three-register scalar instruction on a unit that can run it writes the operation's value into s[D]. -/
theorem alu3_run (h : s.canRun u f.g ⟨[f.d, f.a, f.b], []⟩) (hr : resA f = false) (op : Word → Word → Word) :
    s.alu3 u f op = s.afterS u f.d (op (s.sOf u f.a) (s.sOf u f.b)) :=
  scalar_setS h _ hr f.d (fun m => op (m.sreg f.a.toNat) (m.sreg f.b.toNat)) _ rfl

theorem exec_div_run (h : s.canRun u f.g ⟨[f.d, f.a, f.b], []⟩) (hr : resA f = false) :
    exec (.div u f) s = .next (s.afterS u f.d (if s.sOf u f.b = 0 then BitVec.allOnes 64
      else BitVec.ofInt 64 ((s.sOf u f.a).toInt.tdiv (s.sOf u f.b).toInt))) :=
  congrArg Host.Outcome.next (alu3_run h hr _)

theorem exec_divu_run (h : s.canRun u f.g ⟨[f.d, f.a, f.b], []⟩) (hr : resA f = false) :
    exec (.divu u f) s = .next (s.afterS u f.d (if s.sOf u f.b = 0 then BitVec.allOnes 64
      else BitVec.ofNat 64 ((s.sOf u f.a).toNat / (s.sOf u f.b).toNat))) :=
  congrArg Host.Outcome.next (alu3_run h hr _)

theorem exec_rem_run (h : s.canRun u f.g ⟨[f.d, f.a, f.b], []⟩) (hr : resA f = false) :
    exec (.rem u f) s = .next (s.afterS u f.d (if s.sOf u f.b = 0 then s.sOf u f.a
      else BitVec.ofInt 64 ((s.sOf u f.a).toInt.tmod (s.sOf u f.b).toInt))) :=
  congrArg Host.Outcome.next (alu3_run h hr _)

theorem exec_remu_run (h : s.canRun u f.g ⟨[f.d, f.a, f.b], []⟩) (hr : resA f = false) :
    exec (.remu u f) s = .next (s.afterS u f.d (if s.sOf u f.b = 0 then s.sOf u f.a
      else BitVec.ofNat 64 ((s.sOf u f.a).toNat % (s.sOf u f.b).toNat))) :=
  congrArg Host.Outcome.next (alu3_run h hr _)

end

/-- The quotient 2^63 does not fit a signed word and wraps round to −2^63. -/
theorem tdiv_overflow : BitVec.ofInt 64 ((0x8000000000000000 : Word).toInt.tdiv (0xFFFFFFFFFFFFFFFF : Word).toInt) =
    0x8000000000000000 := by decide

theorem tmod_overflow : BitVec.ofInt 64 ((0x8000000000000000 : Word).toInt.tmod (0xFFFFFFFFFFFFFFFF : Word).toInt) = 0 := by decide

end Sys2Proof.Machine

open Sys2Proof Sys2Proof.Machine

/-- Settles O8: a divisor of 0 takes the first branch of each instruction's value; the signed overflow takes the second, and wraps. -/
theorem divisionNeverTraps : Obligations.DivisionNeverTraps := by
  unfold Obligations.DivisionNeverTraps
  intro s u f run unused
  rw [exec_div_run run unused, exec_divu_run run unused, exec_rem_run run unused, exec_remu_run run unused]
  constructor
  · intro zeroDivisor
    simp only [if_pos zeroDivisor, and_self]
  · intro minDividend minusOneDivisor
    have nonzero : (0xFFFFFFFFFFFFFFFF : Word) ≠ 0 := by decide
    simp only [minDividend, minusOneDivisor, if_neg nonzero, tdiv_overflow, tmod_overflow, and_self]

end

section
/-! PROOF. The pool map and its inverse (R238 to R242). A PPA is a mixed-radix number: its row, the span within the row (a keystone group
in a NEAR region, the whole row in a WIDE one), the run of one granule for each keystone of the span, the granule's slot in that run, and
the byte in the granule. The map keeps row, run and byte, and rotates the slot within its run; so does its inverse, the other way. -/

namespace Sys2Proof.Machine

open Sys2Proof

/-! ## The rotation term -/

theorem mapRot_lt (r : Nat) : mapRot r < 32 := by
  have bits5 : ∀ x, x % 32 < 2 ^ 5 := fun x => Nat.mod_lt x (by decide)
  have bits3 : r / 2 ^ 15 % 8 < 2 ^ 5 := Nat.lt_trans (Nat.mod_lt _ (by decide)) (by decide)
  exact Nat.xor_lt_two_pow (Nat.xor_lt_two_pow (Nat.xor_lt_two_pow (bits5 _) (bits5 _)) (bits5 _)) bits3

/-- The four fields of a run number whose exclusive or R242 takes. -/
theorem mapRot_eq_xor_fields {r : Nat} (h : r < 2 ^ 18) :
    BitVec.ofNat 5 (mapRot r) = ((BitVec.ofNat 18 r).extractLsb' 0 5) ^^^ ((BitVec.ofNat 18 r).extractLsb' 5 5) ^^^
      ((BitVec.ofNat 18 r).extractLsb' 10 5) ^^^ ((BitVec.ofNat 18 r).extractLsb' 15 3).setWidth 5 := by
  apply BitVec.eq_of_toNat_eq
  rw [BitVec.toNat_ofNat, Nat.mod_eq_of_lt (mapRot_lt r)]
  have word : r % 262144 = r := Nat.mod_eq_of_lt h
  have top : r / 32768 % 8 % 32 = r / 32768 % 8 := Nat.mod_eq_of_lt (Nat.lt_trans (Nat.mod_lt _ (by decide)) (by decide))
  simp only [mapRot, BitVec.toNat_xor, BitVec.extractLsb'_toNat, BitVec.toNat_setWidth, BitVec.toNat_ofNat,
    Nat.shiftRight_eq_div_pow, Nat.pow_zero, Nat.div_one, Nat.reducePow, word, top]

theorem rotate_back {n f : Nat} (a : Nat) (h : f ≤ 32 * n) : ((a + f) % n + 32 * n - f) % n = a % n := by
  rw [Nat.add_sub_assoc h, Nat.mod_add_mod, show a + f + (32 * n - f) = a + 32 * n by omega, Nat.add_mul_mod_self_right]

theorem rotate_forth {n f : Nat} (q : Nat) (h : f ≤ 32 * n) : ((q + 32 * n - f) % n + f) % n = q % n := by
  rw [Nat.mod_add_mod, Nat.sub_add_cancel (by omega), Nat.add_mul_mod_self_right]

/-! ## The keystones of a build -/

theorem buildKeys_length_pos (b : Build) : 0 < (buildKeys b).length := by cases b <;> decide

theorem buildKeys_nodup (b : Build) : (buildKeys b).Nodup := by cases b <;> decide

/-- The keystone groups of a build: `State.groups` of every state of that build. -/
def keyGroups (b : Build) : List Nat := ((buildKeys b).map (· / 3)).eraseDups

theorem keyGroups_nodup (b : Build) : (keyGroups b).Nodup := by cases b <;> decide

theorem div_three_mem_keyGroups {b : Build} {k : Nat} (h : k ∈ buildKeys b) : k / 3 ∈ keyGroups b := by
  simpa [keyGroups] using ⟨k, h, rfl⟩

/-- A build of three keystones or more has whole groups only (Table 10.1). -/
theorem buildKeys_length_eq_groups {b : Build} (h : 3 ≤ (buildKeys b).length) : (buildKeys b).length = (keyGroups b).length * 3 := by
  cases b <;> revert h <;> decide

theorem group_keys_present {b : Build} (h : 3 ≤ (buildKeys b).length) : ∀ g ∈ keyGroups b, ∀ q < 3, 3 * g + q ∈ buildKeys b := by
  cases b <;> revert h <;> decide

theorem getD_of_lt {l : List Nat} {i : Nat} (h : i < l.length) : l.getD i 0 = l[i] := by
  rw [List.getD_eq_getElem?_getD, List.getElem?_eq_getElem h, Option.getD_some]

/-! ## Spans: the array key[] of R242 -/

/-- n of R242: the keystones of each span of a row. -/
def State.spanWidth (s : State) (row : Nat) : Nat := if s.isNear (row / 8) then 3 else s.kCount

/-- The spans of a row: its keystone groups where the region is NEAR, and one where it is WIDE. -/
def State.spanCount (s : State) (row : Nat) : Nat := if s.isNear (row / 8) then s.groups.length else 1

/-- key[q] of R242 in a span. -/
def State.spanKey (s : State) (row span q : Nat) : Nat :=
  if s.isNear (row / 8) then 3 * s.groups.getD span 0 + q else (buildKeys s.build).getD q 0

/-- The span of a row that a keystone belongs to. -/
def State.keySpan (s : State) (row k : Nat) : Nat := if s.isNear (row / 8) then s.groups.idxOf (k / 3) else 0

/-- The index of a keystone in key[] of R242. -/
def State.keyIndex (s : State) (row k : Nat) : Nat := if s.isNear (row / 8) then k % 3 else (buildKeys s.build).idxOf k

section
variable {s : State} {row : Nat}

theorem kCount_ge_of_isNear {d : Nat} (h : s.isNear d = true) : 3 ≤ (buildKeys s.build).length := by
  simp only [State.isNear, Bool.and_eq_true, decide_eq_true_eq] at h
  exact h.1.2

theorem spanWidth_pos : 0 < s.spanWidth row := by
  unfold State.spanWidth
  split
  · decide
  · exact buildKeys_length_pos s.build

/-- The spans divide a row without a rest. -/
theorem spanCount_mul_spanWidth : s.spanCount row * s.spanWidth row = s.kCount := by
  unfold State.spanCount State.spanWidth
  split
  next near => exact (buildKeys_length_eq_groups (kCount_ge_of_isNear near)).symm
  next => exact Nat.one_mul _

theorem mapRot_le_spanWidth (r : Nat) : mapRot r ≤ 32 * s.spanWidth row := by
  have := mapRot_lt r
  have := spanWidth_pos (s := s) (row := row)
  omega

theorem spanKey_mem {span q : Nat} (hs : span < s.spanCount row) (hq : q < s.spanWidth row) : s.spanKey row span q ∈ buildKeys s.build := by
  unfold State.spanCount at hs
  unfold State.spanWidth at hq
  unfold State.spanKey
  split at hs
  next near =>
    rw [if_pos near] at hq ⊢
    rw [getD_of_lt hs]
    exact group_keys_present (kCount_ge_of_isNear near) _ (List.getElem_mem hs) q hq
  next wide =>
    rw [if_neg wide] at hq ⊢
    rw [getD_of_lt hq]
    exact List.getElem_mem hq

theorem keySpan_spanKey {span q : Nat} (hs : span < s.spanCount row) (hq : q < s.spanWidth row) :
    s.keySpan row (s.spanKey row span q) = span := by
  unfold State.spanCount at hs
  unfold State.spanWidth at hq
  unfold State.keySpan State.spanKey
  split at hs
  next near =>
    rw [if_pos near] at hq
    rw [if_pos near, if_pos near, getD_of_lt hs, show (3 * s.groups[span] + q) / 3 = s.groups[span] by omega]
    exact (keyGroups_nodup s.build).idxOf_getElem span hs
  next wide => rw [if_neg wide]; omega

theorem keyIndex_spanKey {span q : Nat} (hq : q < s.spanWidth row) : s.keyIndex row (s.spanKey row span q) = q := by
  unfold State.spanWidth at hq
  unfold State.keyIndex State.spanKey
  split at hq
  next near => rw [if_pos near, if_pos near]; omega
  next wide =>
    rw [if_neg wide, if_neg wide, getD_of_lt hq]
    exact (buildKeys_nodup s.build).idxOf_getElem q hq

theorem keySpan_lt {k : Nat} (h : k ∈ buildKeys s.build) : s.keySpan row k < s.spanCount row := by
  unfold State.keySpan State.spanCount
  split
  · exact List.idxOf_lt_length_of_mem (div_three_mem_keyGroups h)
  · exact Nat.one_pos

theorem keyIndex_lt {k : Nat} (h : k ∈ buildKeys s.build) : s.keyIndex row k < s.spanWidth row := by
  unfold State.keyIndex State.spanWidth
  split
  · exact Nat.mod_lt k (by decide)
  · exact List.idxOf_lt_length_of_mem h

theorem spanKey_keySpan_keyIndex {k : Nat} (h : k ∈ buildKeys s.build) : s.spanKey row (s.keySpan row k) (s.keyIndex row k) = k := by
  unfold State.spanKey State.keySpan State.keyIndex
  split
  next =>
    have group : k / 3 ∈ s.groups := div_three_mem_keyGroups h
    rw [getD_of_lt (List.idxOf_lt_length_of_mem group), List.getElem_idxOf]
    exact Nat.div_add_mod k 3
  next => rw [getD_of_lt (List.idxOf_lt_length_of_mem h), List.getElem_idxOf]

end

/-! ## Places: a PPA's row, span, run, slot and byte -/

/-- A place in the pool: row, span of the row, run of granules in the span, slot of the run, and byte of the granule. -/
structure PoolPlace where
  row : Nat
  span : Nat
  run : Nat
  slot : Nat
  byte : Nat

/-- Whether a place is one of the pool's. -/
structure State.HasPlace (s : State) (p : PoolPlace) : Prop where
  row : p.row < 64
  span : p.span < s.spanCount p.row
  run : p.run < 2 ^ 18
  slot : p.slot < s.spanWidth p.row
  byte : p.byte < 2 ^ 12

/-- The granule of a place within its span. -/
def State.placeGranule (s : State) (p : PoolPlace) : Nat := p.slot + s.spanWidth p.row * p.run

/-- The offset of a place within its span. -/
def State.spanOffset (s : State) (p : PoolPlace) : Nat := p.byte + 2 ^ 12 * s.placeGranule p

/-- The offset of a place within its row. -/
def State.rowOffset (s : State) (p : PoolPlace) : Nat := s.spanOffset p + s.spanWidth p.row * 2 ^ 30 * p.span

/-- The PPA of a place. -/
def State.ppaOf (s : State) (p : PoolPlace) : Nat := s.rowOffset p + s.rowSize * p.row

/-- The stack-local address of a place (R242). -/
def PoolPlace.sla (p : PoolPlace) : Nat := 2 ^ 30 * p.row + 2 ^ 12 * p.run + p.byte

/-- The place of a PPA, digit by digit. -/
def State.placeOf (s : State) (ppa : Nat) : PoolPlace :=
  let row := ppa / s.rowSize
  let o := ppa % s.rowSize
  let g := o % (s.spanWidth row * 2 ^ 30) / 2 ^ 12
  ⟨row, o / (s.spanWidth row * 2 ^ 30), g / s.spanWidth row, g % s.spanWidth row, ppa % 2 ^ 12⟩

theorem digit_lt {a b x y : Nat} (hx : x < a) (hy : y < b) : x + a * y < a * b := by
  calc x + a * y < a + a * y := Nat.add_lt_add_right hx _
    _ = a * (y + 1) := by rw [Nat.mul_succ, Nat.add_comm]
    _ ≤ a * b := Nat.mul_le_mul_left a hy

section
variable {s : State} {p : PoolPlace}

theorem rowSize_pos : 0 < s.rowSize := Nat.mul_pos (by decide) (buildKeys_length_pos s.build)

theorem rowSize_eq_spans (row : Nat) : s.rowSize = s.spanWidth row * 2 ^ 30 * s.spanCount row := by
  rw [State.rowSize, ← spanCount_mul_spanWidth (s := s) (row := row)]
  grind

theorem rowSize_dvd : 2 ^ 12 ∣ s.rowSize := Nat.dvd_mul_right_of_dvd (by decide) _

theorem State.HasPlace.spanOffset_lt (h : s.HasPlace p) : s.spanOffset p < s.spanWidth p.row * 2 ^ 30 :=
  calc s.spanOffset p < 2 ^ 12 * (s.spanWidth p.row * 2 ^ 18) := digit_lt h.byte (digit_lt h.slot h.run)
    _ = s.spanWidth p.row * 2 ^ 30 := by grind

theorem State.HasPlace.rowOffset_lt (h : s.HasPlace p) : s.rowOffset p < s.rowSize := by
  rw [rowSize_eq_spans p.row]
  exact digit_lt h.spanOffset_lt h.span

theorem State.HasPlace.ppaOf_lt (h : s.HasPlace p) : s.ppaOf p < s.poolSize := by
  rw [State.poolSize, Nat.mul_comm]
  exact digit_lt h.rowOffset_lt h.row

theorem State.HasPlace.sla_lt (h : s.HasPlace p) : p.sla < 2 ^ 36 := by
  obtain ⟨row, -, run, -, byte⟩ := h
  unfold PoolPlace.sla
  omega

theorem div_mod_digit {a x : Nat} (y : Nat) (hx : x < a) : (x + a * y) / a = y ∧ (x + a * y) % a = x :=
  (Nat.div_mod_unique (Nat.zero_lt_of_lt hx)).mpr ⟨rfl, hx⟩

/-- Within its granule a PPA moves with the byte (R240). -/
theorem ppaOf_byte (p : PoolPlace) (i : Nat) : s.ppaOf { p with byte := i } = s.ppaOf { p with byte := 0 } + i := by
  simp only [State.ppaOf, State.rowOffset, State.spanOffset, State.placeGranule]
  grind

theorem ppaOf_mod_granule (h : s.HasPlace p) : s.ppaOf p % 2 ^ 12 = p.byte := by
  have whole : s.ppaOf p =
      p.byte + 2 ^ 12 * (s.placeGranule p + s.spanWidth p.row * 2 ^ 18 * p.span + 2 ^ 18 * s.kCount * p.row) := by
    simp only [State.ppaOf, State.rowOffset, State.spanOffset, State.rowSize]
    grind
  rw [whole]
  exact (div_mod_digit _ h.byte).2

/-- The digits of the PPA of a place are the place. -/
theorem placeOf_ppaOf (h : s.HasPlace p) : s.placeOf (s.ppaOf p) = p := by
  obtain ⟨row, offset⟩ : s.ppaOf p / s.rowSize = p.row ∧ s.ppaOf p % s.rowSize = s.rowOffset p := div_mod_digit _ h.rowOffset_lt
  obtain ⟨span, inSpan⟩ : s.rowOffset p / (s.spanWidth p.row * 2 ^ 30) = p.span ∧
    s.rowOffset p % (s.spanWidth p.row * 2 ^ 30) = s.spanOffset p := div_mod_digit _ h.spanOffset_lt
  have granule : s.spanOffset p / 2 ^ 12 = s.placeGranule p := (div_mod_digit _ h.byte).1
  obtain ⟨run, slot⟩ : s.placeGranule p / s.spanWidth p.row = p.run ∧ s.placeGranule p % s.spanWidth p.row = p.slot :=
    div_mod_digit _ h.slot
  simp only [State.placeOf, row, offset, span, inSpan, granule, run, slot, ppaOf_mod_granule h]

theorem ppaOf_placeOf (ppa : Nat) : s.ppaOf (s.placeOf ppa) = ppa := by
  have spanDvd : 2 ^ 12 ∣ s.spanWidth (ppa / s.rowSize) * 2 ^ 30 := Nat.dvd_mul_left_of_dvd (by decide) _
  have byte : ppa % 2 ^ 12 = ppa % s.rowSize % (s.spanWidth (ppa / s.rowSize) * 2 ^ 30) % 2 ^ 12 := by
    rw [Nat.mod_mod_of_dvd _ spanDvd, Nat.mod_mod_of_dvd _ rowSize_dvd]
  simp only [State.ppaOf, State.rowOffset, State.spanOffset, State.placeGranule, State.placeOf, byte, Nat.mod_add_div]

theorem hasPlace_placeOf {ppa : Nat} (h : ppa < s.poolSize) : s.HasPlace (s.placeOf ppa) where
  row := Nat.div_lt_of_lt_mul (by rwa [Nat.mul_comm])
  span := Nat.div_lt_of_lt_mul (Nat.lt_of_lt_of_eq (Nat.mod_lt _ rowSize_pos) (rowSize_eq_spans _))
  run := by
    rw [State.placeOf, Nat.div_div_eq_div_mul]
    refine Nat.div_lt_of_lt_mul (Nat.lt_of_lt_of_eq (Nat.mod_lt _ (Nat.mul_pos spanWidth_pos (by decide))) ?_)
    grind
  slot := Nat.mod_lt _ spanWidth_pos
  byte := Nat.mod_lt _ (by decide)

end

/-! ## The map on places -/

/-- The home keystone of a place: the slot rotated by f(r) (R242). -/
def State.homeKey (s : State) (p : PoolPlace) : Nat :=
  s.spanKey p.row p.span ((p.slot + mapRot p.run) % s.spanWidth p.row)

/-- The place of a stack-local address of a keystone: the index rotated back. -/
def State.stackPlace (s : State) (k sla : Nat) : PoolPlace :=
  let row := sla / 2 ^ 30
  let run := sla % 2 ^ 30 / 2 ^ 12
  ⟨row, s.keySpan row k, run, (s.keyIndex row k + 32 * s.spanWidth row - mapRot run) % s.spanWidth row, sla % 2 ^ 12⟩

section
variable {s : State} {p : PoolPlace} {ppa k sla : Nat}

theorem homeKey_mem (h : s.HasPlace p) : s.homeKey p ∈ buildKeys s.build := spanKey_mem h.span (Nat.mod_lt _ spanWidth_pos)

theorem sla_fields (hrun : p.run < 2 ^ 18) (hbyte : p.byte < 2 ^ 12) :
    p.sla / 2 ^ 30 = p.row ∧ p.sla % 2 ^ 30 / 2 ^ 12 = p.run ∧ p.sla % 2 ^ 12 = p.byte := by
  unfold PoolPlace.sla
  omega

theorem stackPlace_sla : (s.stackPlace k sla).sla = sla := by
  simp only [State.stackPlace, PoolPlace.sla]
  omega

theorem hasPlace_stackPlace (hk : k ∈ buildKeys s.build) (hsla : sla < 2 ^ 36) : s.HasPlace (s.stackPlace k sla) where
  row := Nat.div_lt_of_lt_mul hsla
  span := keySpan_lt hk
  run := Nat.div_lt_of_lt_mul (Nat.mod_lt _ (by decide))
  slot := Nat.mod_lt _ spanWidth_pos
  byte := Nat.mod_lt _ (by decide)

theorem stackPlace_homeKey (h : s.HasPlace p) : s.stackPlace (s.homeKey p) p.sla = p := by
  obtain ⟨row, run, byte⟩ := sla_fields h.run h.byte
  have inSpan : (p.slot + mapRot p.run) % s.spanWidth p.row < s.spanWidth p.row := Nat.mod_lt _ spanWidth_pos
  simp only [State.stackPlace, row, run, byte, State.homeKey, keySpan_spanKey h.span inSpan, keyIndex_spanKey inSpan,
    rotate_back p.slot (mapRot_le_spanWidth p.run), Nat.mod_eq_of_lt h.slot]

theorem homeKey_stackPlace (hk : k ∈ buildKeys s.build) : s.homeKey (s.stackPlace k sla) = k := by
  simp only [State.homeKey, State.stackPlace, rotate_forth _ (mapRot_le_spanWidth _), Nat.mod_eq_of_lt (keyIndex_lt hk),
    spanKey_keySpan_keyIndex hk]

theorem poolMap_eq_none (h : s.poolSize ≤ ppa) : s.poolMap ppa = none := if_pos h

theorem poolMap_of_lt (h : ppa < s.poolSize) : s.poolMap ppa = some (s.homeKey (s.placeOf ppa), (s.placeOf ppa).sla) := by
  rw [State.poolMap, if_neg (Nat.not_le.mpr h)]
  have wideOffset : ppa % s.rowSize % (s.kCount * 2 ^ 30) = ppa % s.rowSize := by
    rw [Nat.mul_comm]
    exact Nat.mod_mod _ _
  cases near : s.isNear (ppa / s.rowSize / 8) <;>
    simp only [State.homeKey, State.placeOf, State.spanKey, State.spanWidth, PoolPlace.sla, near, wideOffset, Nat.mod_add_mod,
      Bool.false_eq_true, if_true, if_false]

theorem poolMap_ppaOf (h : s.HasPlace p) : s.poolMap (s.ppaOf p) = some (s.homeKey p, p.sla) := by
  rw [poolMap_of_lt h.ppaOf_lt, placeOf_ppaOf h]

theorem poolUnmap_eq_ppaOf (k sla : Nat) : s.poolUnmap k sla = s.ppaOf (s.stackPlace k sla) := by
  cases near : s.isNear (sla / 2 ^ 30 / 8) <;>
    simp only [State.poolUnmap, State.ppaOf, State.rowOffset, State.spanOffset, State.placeGranule, State.stackPlace,
      State.keySpan, State.keyIndex, State.spanWidth, near, Bool.false_eq_true, if_true, if_false] <;> grind

/-- A granule lies at consecutive addresses of one stack (R240). -/
theorem poolMap_granule {i : Nat} (h : ppa % 2 ^ 12 = 0) (hi : i < 2 ^ 12) :
    s.poolMap (ppa + i) = (s.poolMap ppa).map (fun x => (x.1, x.2 + i)) := by
  by_cases mem : ppa < s.poolSize
  case neg =>
    have past : s.poolSize ≤ ppa := Nat.not_lt.mp mem
    rw [poolMap_eq_none past, poolMap_eq_none (Nat.le_trans past (Nat.le_add_right _ _)), Option.map_none]
  case pos =>
    have place := hasPlace_placeOf mem
    have start : { s.placeOf ppa with byte := 0 } = s.placeOf ppa := by simp only [← h]; rfl
    have moved : s.HasPlace { s.placeOf ppa with byte := i } := { place with byte := hi }
    have split := ppaOf_byte (s := s) (s.placeOf ppa) i
    rw [start, ppaOf_placeOf] at split
    rw [← split, poolMap_ppaOf moved, poolMap_of_lt mem, Option.map_some]
    have zero : (s.placeOf ppa).byte = 0 := h
    simp [State.homeKey, PoolPlace.sla, zero]

theorem homeOf_fst (line : Nat) : (s.homeOf line).map (·.1) = (s.poolMap (64 * line)).map (·.1) := by
  unfold State.homeOf
  cases s.poolMap (64 * line) <;> rfl

/-- The home of every line of a granule is the granule's keystone (R240). -/
theorem homeOf_granule {i : Nat} (h : ppa % 2 ^ 12 = 0) (hi : i < 2 ^ 12) :
    (s.homeOf ((ppa + i) / 64)).map (·.1) = (s.poolMap ppa).map (·.1) := by
  have line : 64 * ((ppa + i) / 64) = ppa + 64 * (i / 64) := by omega
  rw [homeOf_fst, line, poolMap_granule h (by omega), Option.map_map]
  rfl

end
end Sys2Proof.Machine

open Sys2Proof Sys2Proof.Machine

/-- Settles O6: the map takes the PPA of a place to the home keystone and stack-local address of that place, and `State.poolUnmap` takes
these back, since places and PPAs, and places and stack-local addresses of the keystones present, correspond one to one. -/
theorem poolMapIsOneToOne : Obligations.PoolMapIsOneToOne := by
  unfold Obligations.PoolMapIsOneToOne
  refine ⟨fun r hr => mapRot_eq_xor_fields hr, fun s => ⟨fun ppa past => poolMap_eq_none past, ?_, ?_, ?_⟩⟩
  · intro ppa mem
    have place := hasPlace_placeOf mem
    have mapped := poolMap_of_lt mem
    have formula := mapped
    rw [State.poolMap, if_neg (Nat.not_le.mpr mem), State.rowSize, Nat.mul_comm (2 ^ 30)] at formula
    obtain ⟨key, address⟩ := Prod.mk.inj (Option.some.inj formula)
    refine ⟨_, _, mapped, homeKey_mem place, ?_, place.sla_lt, key.symm, ?_⟩
    · rw [← address, Nat.mul_comm (2 ^ 30), Nat.mul_comm (2 ^ 12)]
    · rw [poolUnmap_eq_ppaOf, stackPlace_homeKey place, ppaOf_placeOf]
  · intro k sla present inStack
    have place := hasPlace_stackPlace present inStack
    rw [poolUnmap_eq_ppaOf, poolMap_ppaOf place, homeKey_stackPlace present, stackPlace_sla]
    exact ⟨place.ppaOf_lt, rfl⟩
  · exact fun ppa i start inGranule => ⟨poolMap_granule start inGranule, homeOf_granule start inGranule⟩

end

