-- ==== Sys2Proof/Proofs/MarkLog.lean ====
section
/-! PROOF. The mark log: what an event does to it (R525), and what FREEZE, THAW and CLEAR do (R528, R529). Each of the three ends with
`State.note`, which may send interrupts and wake control cores; none of that touches the log. -/

namespace Sys2Proof.Machine

open Sys2Proof

/-! ## Interrupts and waking cores leave the mark log unchanged -/

@[simp] theorem coreAccept_ml (s : State) (i : Nat) : (s.coreAccept i).ml = s.ml := rfl

@[simp] theorem coreWake_ml (s : State) (i : Nat) : (s.coreWake i).ml = s.ml := by
  simp only [State.coreWake]
  split
  · split
    · exact coreAccept_ml _ i
    · rfl
  · rfl

@[simp] theorem wakeCores_ml (s : State) : s.wakeCores.ml = s.ml := by
  unfold State.wakeCores
  split
  · exact List.foldlRecOn (motive := fun t : State => t.ml = s.ml) _ _ rfl (fun t same i _ => (coreWake_ml t i).trans same)
  · rfl

@[simp] theorem note_ml (s : State) (w : Win) : (s.note w).ml = s.ml := by
  simp only [State.note, wakeCores_ml]
  split <;> rfl

@[simp] theorem modMl_ml (s : State) (f : MarkLog → MarkLog) : (s.modMl f).ml = f s.ml := rfl

@[simp] theorem modMl_markRec (s : State) (f : MarkLog → MarkLog) : (s.modMl f).markRec = s.markRec := rfl

/-! ## Entering an event (R525) -/

/-- The last record takes a merge: it is available, and it is not closed (R525, R530). -/
def MarkLog.Open (m : MarkLog) : Prop := m.written ≠ 0 ∧ m.base ≤ m.written - 1 ∧ m.closed = false

/-- Two records have the same CODE, CLASS and UNIT. -/
def MarkRec.Like (l x : MarkRec) : Prop := l.code = x.code ∧ l.cls = x.cls ∧ l.unit = x.unit

theorem MarkRec.like_iff {l x : MarkRec} : (l.code == x.code && l.cls == x.cls && l.unit == x.unit) = true ↔ l.Like x := by
  simp only [Bool.and_eq_true, beq_iff_eq, and_assoc, MarkRec.Like]

section
variable {m : MarkLog} {l x : MarkRec}

theorem MarkLog.last_eq_some_iff : m.last = some l ↔ m.Open ∧ tblFind m.ring ((m.written - 1) % 4096) = some l :=
  Option.ite_none_right_eq_some

theorem MarkLog.enter_frozen (frozen : m.frozen = true) : m.enter x = { m with missed := min (m.missed + 1) (2 ^ 32 - 1) } :=
  if_pos frozen

theorem MarkLog.enter_merge (thawed : m.frozen = false) (last : m.last = some l) (like : l.Like x) :
    m.enter x =
      { m with ring := tblSet m.ring ((m.written - 1) % 4096) { l with rep := min (l.rep + 1) (2 ^ 32 - 1) }, lastTime := x.time } := by
  simp only [MarkLog.enter, thawed, last, Bool.false_eq_true, if_false]
  exact if_pos like

theorem MarkLog.enter_write (thawed : m.frozen = false) (unlike : ∀ l, m.last = some l → ¬ l.Like x) : m.enter x = m.write x := by
  simp only [MarkLog.enter, thawed, Bool.false_eq_true, if_false]
  cases last : m.last with
  | none => rfl
  | some l => exact if_neg (unlike l last)

@[simp] theorem MarkLog.write_ring_written (m : MarkLog) (x : MarkRec) : tblFind (m.write x).ring (m.written % 4096) = some x :=
  tblFind_tblSet_self _ _ _

end

/-! ## FREEZE, THAW and CLEAR (R528, R529) -/

section
variable {s : State} {r : Requester}

theorem exec_freeze_writer (h : s.mlWriter r = true) : exec (.freeze r) s = .next s.mlFreeze := congrArg Host.Outcome.next (if_pos h)

theorem exec_thaw_writer (h : s.mlWriter r = true) : exec (.thaw r) s = .next s.mlThaw := congrArg Host.Outcome.next (if_pos h)

theorem exec_clear_writer (h : s.mlWriter r = true) : exec (.clear r) s = .next s.mlClear := congrArg Host.Outcome.next (if_pos h)

/-- A requester that may not write ML_CTRL changes nothing (R531). -/
theorem exec_markLog_nonwriter (h : s.mlWriter r = false) :
    exec (.freeze r) s = .next s ∧ exec (.thaw r) s = .next s ∧ exec (.clear r) s = .next s :=
  have notWriter : ¬ s.mlWriter r = true := Bool.eq_false_iff.mp h
  ⟨congrArg Host.Outcome.next (if_neg notWriter), congrArg Host.Outcome.next (if_neg notWriter),
    congrArg Host.Outcome.next (if_neg notWriter)⟩

theorem mlFreeze_ml_thawed (h : s.ml.frozen = false) :
    s.mlFreeze.ml = { s.ml with frozen := true, missed := 0, frozenCourses := 0 } := by
  simp only [State.mlFreeze, note_ml, modMl_ml, h, Bool.false_eq_true, if_false]

theorem mlFreeze_ml_frozen (h : s.ml.frozen = true) : s.mlFreeze.ml = { s.ml with frozenCourses := 0 } := by
  simp only [State.mlFreeze, note_ml, modMl_ml, h, if_true]

theorem mlThaw_thawed (h : s.ml.frozen = false) : s.mlThaw = s := if_neg (Bool.eq_false_iff.mp h)

theorem exec_thaw_thawed (h : s.ml.frozen = false) : exec (.thaw r) s = .next s := by
  cases writer : s.mlWriter r with
  | false => exact (exec_markLog_nonwriter writer).2.1
  | true => rw [exec_thaw_writer writer, mlThaw_thawed h]

/-- The log after a thaw at which no CLEAR is held: with events missed, record 0x0002 comes first. -/
theorem mlThaw_ml (frozen : s.ml.frozen = true) (noClear : s.ml.heldClear = false) :
    s.mlThaw.ml =
      { (if s.ml.missed ≠ 0 then { s.ml with frozen := false }.write (s.markRec 2 0 unitSet false s.ml.missed 0 0 0)
          else { s.ml with frozen := false }) with closed := true } := by
  by_cases missed : s.ml.missed ≠ 0
  · simp only [State.mlThaw, if_pos frozen, note_ml, modMl_ml, modMl_markRec, noClear, Bool.false_eq_true, if_false, if_pos missed]
  · simp only [State.mlThaw, if_pos frozen, note_ml, modMl_ml, modMl_markRec, noClear, Bool.false_eq_true, if_false, if_neg missed]

theorem mlClear_frozen (h : s.ml.frozen = true) : s.mlClear = { s with ml := { s.ml with heldClear := true } } := if_pos h

/-- The log after a CLEAR that acts: emptied, then record 0x0001 with the number of records that were available. -/
theorem mlClear_ml_thawed (h : s.ml.frozen = false) :
    s.mlClear.ml = { s.ml with base := s.ml.written, heldClear := false }.write
      (s.markRec 1 0 unitSet false (s.ml.written - s.ml.base) ((s.ml.written - s.ml.base) / 2 ^ 32) 0 0) := by
  simp only [State.mlClear, State.mlClearNow, h, Bool.false_eq_true, if_false, note_ml, modMl_ml]

end
end Sys2Proof.Machine

open Sys2Proof Sys2Proof.Machine

/-- Settles O59: an event meets the frozen log, a last record that it merges into, or neither; a thaw is split by whether events were
missed, and FREEZE and CLEAR by whether the log is frozen. -/
theorem markLogRecords : Obligations.MarkLogRecords := by
  unfold Obligations.MarkLogRecords
  intro s r
  refine ⟨exec_markLog_nonwriter, fun x => ⟨MarkLog.enter_frozen, ?merge, ?write⟩, ?freezeThawed, ?freezeFrozen, ?thawNoneMissed,
    exec_thaw_thawed, ?thawMissed, ?clearFrozen, ?clearThawed⟩
  case merge =>
    rintro l thawed ⟨written, available, notClosed, like⟩ found
    rw [found, Option.any_some, MarkRec.like_iff] at like
    exact MarkLog.enter_merge thawed (MarkLog.last_eq_some_iff.mpr ⟨⟨written, available, notClosed⟩, found⟩) like
  case write =>
    intro thawed noMerge
    refine MarkLog.enter_write thawed (fun l last like => noMerge ?_)
    obtain ⟨⟨written, available, notClosed⟩, found⟩ := MarkLog.last_eq_some_iff.mp last
    refine ⟨written, available, notClosed, ?_⟩
    rw [found, Option.any_some, MarkRec.like_iff]
    exact like
  case freezeThawed => exact fun writer thawed => ⟨_, exec_freeze_writer writer, mlFreeze_ml_thawed thawed⟩
  case freezeFrozen => exact fun writer frozen => ⟨_, exec_freeze_writer writer, mlFreeze_ml_frozen frozen⟩
  case thawNoneMissed =>
    intro writer frozen noClear noneMissed
    refine ⟨_, exec_thaw_writer writer, ?_⟩
    rw [mlThaw_ml frozen noClear, if_neg (absurd noneMissed)]
  case thawMissed =>
    intro writer frozen noClear missed
    refine ⟨_, exec_thaw_writer writer, ?_⟩
    rw [mlThaw_ml frozen noClear, if_pos missed]
    exact ⟨rfl, rfl, congrArg (Option.map _) (MarkLog.write_ring_written { s.ml with frozen := false } _)⟩
  case clearFrozen => exact fun writer frozen => (exec_clear_writer writer).trans (congrArg Host.Outcome.next (mlClear_frozen frozen))
  case clearThawed =>
    intro writer thawed
    refine ⟨_, exec_clear_writer writer, ?_⟩
    rw [mlClear_ml_thawed thawed]
    exact ⟨rfl, rfl, congrArg (Option.map _) (MarkLog.write_ring_written { s.ml with base := s.ml.written, heldClear := false } _)⟩

end
